-- ==== Sys2Proof/Word.lean ====
section
/-! DEFINITION. The widths of the values the station handles as bits (spec/00_scope.md, Conventions; R73, R176). -/

namespace Sys2Proof

/-- One byte, on the peer bus or on the board port. -/
abbrev Byte := BitVec 8

/-- A two-byte field: frame count, digest, event number, fingerprint, counter. -/
abbrev Half := BitVec 16

/-- A station address, 0..15 (R136). -/
abbrev Addr := BitVec 4

/-- A value of the tick counter, 0..16,777,215 (R73). -/
abbrev Tick := BitVec 24

/-- A set of station addresses: bit `a` is set when address `a` is in the set (the late set of R14 is
carried in this very form, R177; the streak of R92 uses it too). -/
abbrev AddrSet := BitVec 16

end Sys2Proof
end

