-- ==== Sys2Proof/Config.lean ====
section
/-! DEFINITION. The fixed limits and spans the manual names, and the one choice it leaves open. -/

namespace Sys2Proof.Config

/-- Open events per table (R17). -/
def maxOpen : Nat := 4
/-- History records per table (R18). -/
def maxHistory : Nat := 16
/-- Members per event (R11). -/
def maxMembers : Nat := 16
/-- General places of the outbox: CLAIM, STATE, STATE_REQ and PRESENCE entries together (R68). -/
def maxGeneral : Nat := 6
/-- CLOSE places of the outbox (R68). -/
def maxClose : Nat := 4
/-- Bit errors that discard an entry (R59). -/
def maxAttempts : Nat := 8
/-- Consecutive discards that put the station in MUTE (R60). -/
def maxDiscards : Nat := 3
/-- Orders in the Order Queue (R150). -/
def maxOrders : Nat := 8
/-- Frames in the hold queue (R110). -/
def maxHold : Nat := 16
/-- Unanswered requests before the self-assert check (R123). -/
def maxUnanswered : Nat := 4
/-- Ticks from the completion of a STATE_REQ to the request deadline (R108). -/
def requestSpan : Nat := 96
/-- Ticks from a chunk to the chunk deadline (R114, R116). -/
def chunkSpan : Nat := 32
/-- Ticks of RETRY_WAIT (R123). -/
def retrySpan : Nat := 1024
/-- Ticks added to 4 × P for the listening period (R138, R147). -/
def listeningExtra : Nat := 64
/-- Recessive bit times in a row after which PBD is idle (R52). -/
def idleBits : Nat := 12
/-- Recessive bit times in a row a yielding station waits for (R57). -/
def yieldBits : Nat := 24
/-- Largest forward span over which a due tick counts as reached (Conventions, Ticks). -/
def tickHalfRange : Nat := 8388607
/-- Largest span over which one frame count is before another (Conventions, Frame counts). -/
def countHalfRange : Nat := 32767
/-- The largest body of a frame in bytes (R53). -/
def maxBody : Nat := 48
/-- The starting value of the frame CRC and of the fingerprint (R179). -/
def crcStart : Half := 0xFFFF#16

/-- DESIGN CHOICE (log 3). A held frame whose carried count lies exactly 32,768 from the running count
is neither before nor after it, and R118 gives no row for it. The value is free: `true` discards the
frame, `false` makes it a gap. The first argument is the running count, the second the carried one. -/
opaque heldAtHalfRangeDiscarded : Half → Half → Bool

end Sys2Proof.Config
end

