-- ==== Sys2Proof/Syntax.lean ====
section
/-! DEFINITION. The commands the station takes: one constructor per row of spec/opcode_table.json, with
the operands the spec gives the row. The table has no operand fields of its own. -/

namespace Sys2Proof

/-- What the header of an accepted frame tells the receiving station (R53, R176). The kind is the
command's constructor; the body length follows from the body. -/
structure Header where
  /-- sender address, the low four bits of the arbitration byte -/
  sender : Addr
  /-- in-step flag -/
  inStep : Bool
  /-- armed flag -/
  armed  : Bool
  /-- carried count -/
  count  : Half
  /-- carried digest -/
  digest : Half
  deriving DecidableEq, Repr

/-- Why the Bus Receiver discards a frame (R64, R65). -/
inductive FrameFault where
  /-- the kind code is not one of the seven (R64) -/
  | kind
  /-- the body length does not suit the kind (R64) -/
  | length
  /-- a seventh equal level where a stuff bit was due (R50, R65) -/
  | stuffing
  /-- a break while the frame is in progress (R51, R65) -/
  | lineBreak
  /-- the CRC received differs from the one computed (R65, R179) -/
  | crc
  /-- a dominant level in the end field (R53, R65) -/
  | endField
  deriving DecidableEq, Repr

/-- The commands, events and completions the station takes, one row of spec/opcode_table.json each. -/
inductive Instr where
  /-- PIN_RESET (R135): RESETn falls, or the supply is not valid. -/
  | pinReset
  /-- RESET_RELEASE (R136): RESETn rises with the straps ADDR and RATE at the given levels. -/
  | resetRelease (addr : Addr) (rate : BitVec 2)
  /-- REF_ARRIVAL (R74): the rising edge of a REF pulse. -/
  | refArrival
  /-- TRIG_EDGE (R79): a rising edge of TRIG. -/
  | trigEdge
  /-- TRANSACTION_OPEN (R158): CSn falls, and the board shifts in `shifted`, nothing or the first bytes of a
  command whose last argument byte is still to come, before the next command waits. -/
  | transactionOpen (shifted : List Byte := [])
  /-- TRANSACTION_END (R160): CSn rises. -/
  | transactionEnd
  /-- STATUS_BYTE_END (R163): the last bit of the status byte has been shifted out. -/
  | statusByteEnd
  /-- SET_CONFIG (R137): the command with its seven argument bytes W, G, Q, H, P (two), V. -/
  | setConfig (w g q h : Byte) (p : Half) (v : Byte)
  /-- ARM (R164). -/
  | arm
  /-- DISARM (R164). -/
  | disarm
  /-- TAKE_ORDER (R154): the command is taken. -/
  | takeOrder
  /-- TAKE_ORDER_COMMIT (R155): the last byte of its response has been shifted out. -/
  | takeOrderCommit
  /-- LIST_EVENTS (R165). -/
  | listEvents
  /-- STAGE_EVENT (R166) of an event number. -/
  | stageEvent (number : Half)
  /-- READ_STAGE (R167) of an offset and a length. -/
  | readStage (offset length : Byte)
  /-- READ_STATUS (R168). -/
  | readStatus
  /-- READ_COUNTERS (R169) from a first index, n of them. -/
  | readCounters (first n : Byte)
  /-- READ_ROSTER (R170). -/
  | readRoster
  /-- ACK_FLAGS (R173) with a two-byte mask: the command is taken. -/
  | ackFlags (mask : Half)
  /-- ACK_FLAGS_COMMIT (R173): the last byte of its response has been shifted out. -/
  | ackFlagsCommit
  /-- ASK_CLEAR (R171). -/
  | askClear
  /-- ASK_EPOCH (R171). -/
  | askEpoch
  /-- RESTART_STATION (R146): the command is taken. -/
  | restartStation
  /-- RESTART_STATION_COMMIT (R147): the last byte of its response has been shifted out. -/
  | restartStationCommit
  /-- UNKNOWN_COMMAND (R159): a command byte that names no command. -/
  | unknownCommand (code : Byte)
  /-- TRANSMISSION_START (R55): the Bus Transmitter may start, PBD having been recessive for `recessive`
  bit times in a row (R52). -/
  | transmissionStart (recessive : Nat)
  /-- ARBITRATION_LOSS (R56): a recessive bit of byte 0 reads dominant. -/
  | arbitrationLoss
  /-- BIT_ERROR (R58): a read-back mismatch in the frame being sent. -/
  | bitError
  /-- DEFERRED_OFFER_ADMITTED (R71): deferred offers are admitted while general places are free. -/
  | deferredOfferAdmitted
  /-- OWN_CLAIM_COMPLETES (R61, R85). -/
  | ownClaimCompletes
  /-- OWN_CLOSE_COMPLETES (R61). -/
  | ownCloseCompletes
  /-- OWN_CLEAR_COMPLETES (R43). -/
  | ownClearCompletes
  /-- OWN_EPOCH_COMPLETES (R44). -/
  | ownEpochCompletes
  /-- OWN_STATE_COMPLETES (R129). -/
  | ownStateCompletes
  /-- OWN_STATE_REQ_COMPLETES (R108). -/
  | ownStateReqCompletes
  /-- OWN_PRESENCE_COMPLETES (R104). -/
  | ownPresenceCompletes
  /-- FRAME_DISCARDED (R65) at its first fault. -/
  | frameDiscarded (fault : FrameFault)
  /-- CLAIM_ACCEPTED (R66): a CLAIM with its stamp and epoch. -/
  | claimAccepted (h : Header) (stamp : Tick) (epoch : Byte)
  /-- CLOSE_ACCEPTED (R66): a CLOSE for an event number. -/
  | closeAccepted (h : Header) (number : Half)
  /-- CLEAR_ACCEPTED (R66): a CLEAR with the tick and epoch it carries. -/
  | clearAccepted (h : Header) (tick : Tick) (epoch : Byte)
  /-- EPOCH_ACCEPTED (R44). -/
  | epochAccepted (h : Header)
  /-- STATE_ACCEPTED (R112): a STATE chunk with its body bytes. -/
  | stateAccepted (h : Header) (body : List Byte)
  /-- STATE_REQ_ACCEPTED (R126): a STATE_REQ with its fingerprint and attempt number. -/
  | stateReqAccepted (h : Header) (fingerprint : Half) (attempt : Byte)
  /-- PRESENCE_ACCEPTED (R104): a PRESENCE with its fingerprint. -/
  | presenceAccepted (h : Header) (fingerprint : Half)
  /-- CLOSE_DUE_REACHED (R32). -/
  | closeDueReached
  /-- CLAIM_EXPIRY (R83). -/
  | claimExpiry
  /-- PRESENCE_DUE (R103). -/
  | presenceDue
  /-- ABSENCE (R101). -/
  | absence
  /-- REQUEST_DEADLINE (R108). -/
  | requestDeadline
  /-- CHUNK_DEADLINE (R116). -/
  | chunkDeadline
  /-- RETRY_TICK (R123). -/
  | retryTick
  /-- ANSWER_DELAY_END (R128). -/
  | answerDelayEnd
  /-- LISTENING_END (R140). -/
  | listeningEnd
  /-- LINE_IDLE (R63): PBD has been recessive for 12 bit times in a row. -/
  | lineIdle
  /-- START_BIT_TAKEN (R63): a dominant level on an idle line. -/
  | startBitTaken
  /-- BREAK_END (R51): the 10 bit times of this station's own break have passed. -/
  | breakEnd
  /-- RESPONSE_END (R158): the last bit of a response without a commit has been shifted out. -/
  | responseEnd
  deriving DecidableEq, Repr

end Sys2Proof
end

