-- ==== Sys2Proof/Machine/State.lean ====
section
/-! DEFINITION. Everything the spec gives the station to hold, as plain data, and its value in pin
reset (R8, R62, R86, R105, R106, R125, R135; the table of spec/07_joining_the_bus.md, 7.8). -/

namespace Sys2Proof.Machine

/-- Why the station stops with a fault: never. The spec names no condition that stops it, so the type
has no constructor (safe: nothing is left out by it). -/
inductive Fault
  deriving DecidableEq, Repr

/-- Why a command is refused. -/
inductive Refusal where
  /-- Raised by an arm of `exec` whose command has no meaning yet; safe. No arm raises it. -/
  | notModelled (mnemonic : String)
  deriving DecidableEq, Repr

/-! ### The agreement table (chapter 1) -/

/-- A record's state (R10). -/
inductive RecordState where
  /-- OPEN -/
  | opened
  /-- ACCEPTED -/
  | accepted
  /-- DROPPED -/
  | dropped
  deriving DecidableEq, Repr

/-- A record's close cause (R10). -/
inductive Cause where
  /-- OPENER -/
  | opener
  /-- STAND_IN -/
  | standIn
  /-- EPOCH -/
  | epoch
  deriving DecidableEq, Repr

/-- A closed record's order note (R16). -/
inductive OrderNote where
  /-- ORDERED -/
  | ordered
  /-- MISSED -/
  | missed
  /-- DISARMED -/
  | disarmed
  /-- NOT_SEEN -/
  | notSeen
  /-- NONE: the record was DROPPED -/
  | noOrder
  deriving DecidableEq, Repr

/-- One pair of the member list: an address and its signed offset from T0 (R11, R12). -/
structure Member where
  addr   : Addr
  offset : Byte
  deriving DecidableEq, Repr

/-- The two fields a record gains when it closes (R10). -/
structure Closing where
  cause  : Cause
  closer : Addr
  deriving DecidableEq, Repr

/-- One event record (R9 to R16). `due` and `note` are the two local parts. -/
structure EventRecord where
  number  : Half
  epoch   : Byte
  t0      : Tick
  opener  : Addr
  state   : RecordState
  /-- absent while the record is OPEN (R10) -/
  closing : Option Closing
  /-- in join order (R11) -/
  members : List Member
  repeats : Byte
  /-- the late set (R14) -/
  late    : AddrSet
  /-- the close due, present only at an IN_STEP station (R15, R29) -/
  due     : Option Tick
  /-- the order note, present once the record has closed (R16) -/
  note    : Option OrderNote
  deriving DecidableEq, Repr

/-- The agreement table: the replicated header (R3 to R7), the open slots in opening order (R17) and
history, oldest first (R18). -/
structure Table where
  count    : Half
  digest   : Half
  next     : Half
  epoch    : Byte
  overflow : Byte
  stale    : Byte
  void     : Byte
  slots    : List EventRecord
  history  : List EventRecord
  deriving DecidableEq, Repr

/-! ### The peer bus (chapter 3) -/

/-- The seven kinds of frame (R64). -/
inductive Kind where
  | epoch | clear | close | claim | state | stateReq | presence
  deriving DecidableEq, Repr

/-- The values a snapshot header carries, its tick apart, which is filled at each start bit (R128, R176). -/
structure SnapHeader where
  position     : Half
  digest       : Half
  next         : Half
  epoch        : Byte
  openCount    : Nat
  historyCount : Nat
  fingerprint  : Half
  overflow     : Byte
  stale        : Byte
  void         : Byte
  deriving DecidableEq, Repr

/-- What one STATE chunk carries after its three leading fields (R128, R176). -/
inductive Payload where
  | header (h : SnapHeader)
  | record (r : EventRecord)
  deriving DecidableEq, Repr

/-- One STATE chunk as the responder offers it (R128). -/
structure Chunk where
  target  : Addr
  index   : Nat
  total   : Nat
  payload : Payload
  deriving DecidableEq, Repr

/-- The body of an outbox entry, as offered (R68). A CLEAR's tick and epoch are filled at the start
bit (R54) and so are no part of the entry. -/
inductive Body where
  | epoch
  | clear
  | close (number : Half)
  | claim (stamp : Tick) (epoch : Byte)
  | state (chunk : Chunk)
  | stateReq (fingerprint : Half) (attempt : Byte)
  | presence (fingerprint : Half)
  deriving DecidableEq, Repr

/-- An outbox entry (R68). Its admission position is its place in the list. -/
structure Entry where
  body     : Body
  attempts : Nat
  /-- the entry is the one in transmission -/
  sending  : Bool
  /-- withdrawal mark (R72) -/
  mark     : Bool
  deriving DecidableEq, Repr

/-- A frame as the Bus Transmitter sends it: its kind, the header filled at the start bit and the body
bytes (R53, R54). -/
structure Frame where
  kind   : Kind
  header : Header
  body   : List Byte
  deriving DecidableEq, Repr

/-- The Bus Transmitter (R55 to R62, R68 to R72). -/
structure Transmitter where
  /-- admitted entries in sending order (R69) -/
  outbox    : List Entry
  /-- deferred offers in kind order, at most one of each kind (R71) -/
  deferred  : List Body
  /-- the frame in transmission, as filled at its start bit (R54) -/
  onLine    : Option Frame
  /-- a break of this station's own is being driven (R51) -/
  breaking  : Bool
  /-- consecutive-discard count (R59) -/
  discards  : Nat
  /-- the yield state (R57) -/
  yielding  : Bool
  /-- the Transmitter's own count of recessive bit times in a row, as the commands show it (R52) -/
  recessive : Nat
  deriving DecidableEq, Repr

/-- The Bus Receiver's state (R63). -/
inductive ReceiverState where
  | waitIdle | ready | receiving
  deriving DecidableEq, Repr

/-! ### Keeping in step (chapter 5) -/

/-- The step state (R87). -/
inductive StepState where
  | unconfigured | listening | inStep | outOfStep | conflict | mute
  deriving DecidableEq, Repr

/-- A peer's presence value (R97). -/
inductive Presence where
  | absent | present | suspect
  deriving DecidableEq, Repr

/-- One roster entry (R97). -/
structure RosterEntry where
  presence      : Presence
  inStep        : Bool
  armed         : Bool
  heard         : Tick
  disagreements : Byte
  mismatched    : Bool
  deriving DecidableEq, Repr

/-- A peer entry after pin reset, RESTART_STATION and entry into CONFLICT (R97). -/
def RosterEntry.blank : RosterEntry :=
  { presence := .absent, inStep := false, armed := false, heard := 0, disagreements := 0,
    mismatched := false }

/-- The sixteen entries, by address (R97). The own entry is stored blank and never changed; what it
reads as is computed where the roster is read. -/
abbrev Roster := Vector RosterEntry 16

/-- Every entry blank (R97). -/
def Roster.blank : Roster := Vector.replicate 16 RosterEntry.blank

/-! ### Resynchronisation (chapter 6) -/

/-- The body of a frame that can be held (R110). -/
inductive Sequenced where
  | claim (stamp : Tick) (epoch : Byte)
  | close (number : Half)
  | epoch
  deriving DecidableEq, Repr

/-- A held frame (R110). -/
structure Held where
  sender : Addr
  body   : Sequenced
  count  : Half
  deriving DecidableEq, Repr

/-- What the requester holds while RECEIVING (R106). -/
structure Receiving where
  responder : Addr
  header    : SnapHeader
  total     : Nat
  expected  : Nat
  records   : List EventRecord
  deadline  : Tick
  deriving DecidableEq, Repr

/-- The requester's phase with what is present in it (R106). In REQUESTING the deadline is present
exactly when the request has been sent. -/
inductive RequesterPhase where
  | none
  | requesting (deadline : Option Tick)
  | receiving (ctx : Receiving)
  | retryWait (retry : Tick)
  deriving DecidableEq, Repr

/-- The requester context (R106). -/
structure Requester where
  phase      : RequesterPhase
  attempt    : Byte
  unanswered : Nat
  hold       : List Held
  deriving DecidableEq, Repr

/-- The requester in phase NONE (R106). -/
def Requester.idle : Requester := { phase := .none, attempt := 0, unanswered := 0, hold := [] }

/-- The snapshot buffer: a header and 0..20 records (R125, R128). -/
structure Snapshot where
  header  : SnapHeader
  records : List EventRecord
  deriving DecidableEq, Repr

/-- The responder's phase with what is present in it (R125). -/
inductive ResponderPhase where
  | idle
  | delay (target : Addr) (ends : Tick)
  | sending (target : Addr) (snap : Snapshot) (total next : Nat) (headerSent : Bool)
  deriving DecidableEq, Repr

/-- The responder context (R125). -/
structure Responder where
  phase : ResponderPhase
  latch : Option Addr
  deriving DecidableEq, Repr

/-- The responder in phase IDLE with an empty latch (R125). -/
def Responder.idle : Responder := { phase := .idle, latch := none }

/-! ### Capture orders and the board port (chapters 8 and 9) -/

/-- A capture order (R149). -/
structure Order where
  number  : Half
  epoch   : Byte
  t0      : Tick
  opener  : Addr
  members : Nat
  deriving DecidableEq, Repr

/-- An order in the queue with its pending mark (R154). -/
structure QueuedOrder where
  order   : Order
  pending : Bool
  deriving DecidableEq, Repr

/-- The transaction state (R158). -/
inductive TransactionState where
  | waitHigh | idle | command | arguments | response | trailing
  deriving DecidableEq, Repr

/-- What is still to be made at the end of the response (R155, R173, R146). -/
inductive Commit where
  | nothing
  | takeOrder
  | ackFlags (mask copy : Half)
  | restart
  deriving DecidableEq, Repr

/-- The board port's transaction: its state, the command bytes that are in, the response being shifted out, the commit at its end, and
what R163 notes about its status byte. -/
structure Port where
  txn       : TransactionState
  /-- the bytes of the command shifted in so far, its code first: none in COMMAND, at least the code in
  ARGUMENTS (R158) -/
  shifted   : List Byte
  /-- the response bytes, from the status byte on (R159) -/
  response  : List Byte
  commit    : Commit
  /-- the status byte was loaded carrying attention (R163) -/
  carried   : Bool
  /-- a flag has gone from clear to set since the load (R163) -/
  fresh     : Bool
  /-- the last bit of the status byte has been shifted out -/
  statusOut : Bool
  deriving DecidableEq, Repr

/-- The port after pin reset (R158). -/
def Port.reset : Port :=
  { txn := .waitHigh, shifted := [], response := [], commit := .nothing, carried := false, fresh := false,
    statusOut := false }

/-- The sixteen counters, by index (R174). -/
abbrev Counters := Vector Half 16

/-- All sixteen at 0 (R174). -/
def Counters.zero : Counters := Vector.replicate 16 0

/-- The six configuration parameters (R137). -/
structure Params where
  w : Byte
  g : Byte
  q : Byte
  h : Byte
  p : Half
  v : Byte
  deriving DecidableEq, Repr

/-- No configuration yet: what the parameters hold before SET_CONFIG, when no rule reads them
(DESIGN CHOICE, log 2). -/
def Params.unset : Params := { w := 0, g := 0, q := 0, h := 0, p := 0, v := 0 }

/-- The station. Each field's docstring names the rule that gives it. -/
structure State where
  /-- RESETn is low or the supply is not valid (R135) -/
  inReset      : Bool
  /-- the level of CSn (R158) -/
  csnHigh      : Bool
  /-- the address sampled from ADDR[3:0] (R136) -/
  addr         : Addr
  /-- the rate sampled from RATE[1:0] (R49, R136) -/
  rate         : BitVec 2
  /-- W, G, Q, H, P, V (R137, R138) -/
  params       : Params
  /-- the configuration fingerprint (R138) -/
  fingerprint  : Half
  /-- the tick counter (R73) -/
  tick         : Tick
  /-- the arm state (R77) -/
  armed        : Bool
  /-- the last claimed trigger, absent or a tick (R78) -/
  lastClaimed  : Option Tick
  /-- the Bus Transmitter (R55 to R72) -/
  tx           : Transmitter
  /-- the Bus Receiver's state (R63) -/
  rx           : ReceiverState
  /-- the Receiver's own count of recessive bit times in a row, as the commands show it (R52) -/
  rxRecessive  : Nat
  /-- the agreement table (R3 to R20) -/
  table        : Table
  /-- the step state (R87) -/
  stepState    : StepState
  /-- the listening end (R140) -/
  listeningEnd : Option Tick
  /-- the streak (R92) -/
  streak       : AddrSet
  /-- the roster (R97) -/
  roster       : Roster
  /-- the last sent tick (R103) -/
  lastSent     : Tick
  /-- the requester context (R106) -/
  requester    : Requester
  /-- the responder context (R125) -/
  responder    : Responder
  /-- the Order Queue, head first (R150) -/
  orders       : List QueuedOrder
  /-- the board port's transaction (R158) -/
  port         : Port
  /-- the stage buffer: the staged bytes, or invalid (R166) -/
  stage        : Option (List Byte)
  /-- the nine sticky flags, in the layout of R178 (R172) -/
  flags        : BitVec 9
  /-- the attention bit (R163) -/
  attention    : Bool
  /-- the sixteen counters (R174) -/
  counters     : Counters
  /-- the MODEL's own field: the commands that wait, first in, first out -/
  pending      : List Instr
  deriving DecidableEq, Repr

/-- The table after pin reset (R8). -/
def Table.reset : Table :=
  { count := 0, digest := 0, next := 0, epoch := 0, overflow := 0, stale := 0, void := 0,
    slots := [], history := [] }

/-- The transmitter after pin reset (R62). -/
def Transmitter.reset : Transmitter :=
  { outbox := [], deferred := [], onLine := none, breaking := false, discards := 0,
    yielding := false, recessive := 0 }

/-- The station held in pin reset, its condition from power-up on (R135): every block at the values of
the table at the end of chapter 7, no command waiting. The straps read 0 until they are sampled (log 2),
and CSn is taken to stand high (log 2). -/
def State.reset : State :=
  { inReset := true, csnHigh := true, addr := 0, rate := 0, params := Params.unset, fingerprint := 0,
    tick := 0, armed := false, lastClaimed := none, tx := Transmitter.reset, rx := .waitIdle,
    rxRecessive := 0,
    table := Table.reset, stepState := .unconfigured, listeningEnd := none, streak := 0,
    roster := Roster.blank, lastSent := 0, requester := Requester.idle, responder := Responder.idle,
    orders := [], port := Port.reset, stage := none, flags := 0, attention := false,
    counters := Counters.zero, pending := [] }

end Sys2Proof.Machine
end

