-- ==== Sys2Proof/Machine/Operands.lean ====
section
/-! DEFINITION. Every layout of chapter 10: byte order, the CRC, bit stuffing, frames, STATE chunks,
record payloads and the board port's codes, written and read (R50, R53, R64, R117, R176 to R179). -/

namespace Sys2Proof.Machine

/-! ### Byte order (Conventions, Numbers; R176) -/

/-- Two bytes, most significant first. -/
def be16 (x : Half) : List Byte := [x.extractLsb' 8 8, x.extractLsb' 0 8]

/-- Three bytes, most significant first. -/
def be24 (x : Tick) : List Byte := [x.extractLsb' 16 8, x.extractLsb' 8 8, x.extractLsb' 0 8]

/-- The two-byte field read from its bytes. -/
def half (hi lo : Byte) : Half := hi ++ lo

/-- The three-byte field read from its bytes. -/
def tick24 (hi mid lo : Byte) : Tick := hi ++ mid ++ lo

/-- An address in a byte of its own. -/
def addrByte (a : Addr) : Byte := a.setWidth 8

/-- The address a byte holds, none above 15. -/
def byteAddr (b : Byte) : Option Addr := if b.toNat ≤ 15 then some (b.setWidth 4) else none

/-- The bits of a byte, most significant first. -/
def byteBits (b : Byte) : List Bool := [7, 6, 5, 4, 3, 2, 1, 0].map b.getLsbD

/-- The byte of eight bits given most significant first. -/
def bitsByte (bits : List Bool) : Byte :=
  bits.foldl (fun acc b => (acc <<< 1) ||| (if b then 1 else 0)) 0

/-- Bits cut into bytes; bits left over are dropped. -/
def bitsBytes : List Bool → List Byte
  | a :: b :: c :: d :: e :: f :: g :: h :: rest => bitsByte [a, b, c, d, e, f, g, h] :: bitsBytes rest
  | _ => []

/-! ### The CRC (R179) -/

/-- One bit into the running value. -/
def crcBit (crc : Half) (bit : Bool) : Half :=
  if crc.msb != bit then (crc <<< 1) ^^^ 0x1021#16 else crc <<< 1

/-- One byte into the running value, bit 7 first. -/
def crcByte (crc : Half) (b : Byte) : Half := (byteBits b).foldl crcBit crc

/-- The CRC-16 of the bytes, continued from a starting value. -/
def crc16 (start : Half) (bytes : List Byte) : Half := bytes.foldl crcByte start

/-- The configuration fingerprint over W, G, Q and V (R138, R179). -/
def fingerprintOf (p : Params) : Half := crc16 Config.crcStart [p.w, p.g, p.q, p.v]

/-! ### Bit stuffing (R50). `true` is recessive. -/

/-- Stuffs the bits that follow a run of `run` bits of level `last`. -/
def stuffFrom (last : Bool) (run : Nat) : List Bool → List Bool
  | [] => if run = 6 then [!last] else []
  | b :: bs =>
    if run = 6 then
      (!last) :: b :: stuffFrom b (if b = !last then 2 else 1) bs
    else
      b :: stuffFrom b (if b = last then run + 1 else 1) bs

/-- Stuffs a frame from its start bit on: after six equal bits one of the opposite level (R50). -/
def stuff : List Bool → List Bool
  | [] => []
  | b :: bs => b :: stuffFrom b 1 bs

/-- Removes the stuff bits after a run of `run` bits of level `last`; none at a stuffing fault. -/
def unstuffFrom (last : Bool) (run : Nat) : List Bool → Option (List Bool)
  | [] => if run = 6 then none else some []
  | b :: bs =>
    if run = 6 then
      if b = last then none else unstuffFrom b 1 bs
    else
      (unstuffFrom b (if b = last then run + 1 else 1) bs).map (b :: ·)

/-- Removes the stuff bits of a frame; none at a stuffing fault (R50, R65). -/
def unstuff : List Bool → Option (List Bool)
  | [] => some []
  | b :: bs => (unstuffFrom b 1 bs).map (b :: ·)

/-! ### Kinds and frames (R53, R64, R176) -/

/-- The kind code (R64). -/
def Kind.code : Kind → BitVec 4
  | .epoch    => 0x1#4
  | .clear    => 0x2#4
  | .close    => 0x4#4
  | .claim    => 0x5#4
  | .state    => 0x8#4
  | .stateReq => 0x9#4
  | .presence => 0xC#4

/-- The kind a code names (R64). -/
def kindOfCode (c : BitVec 4) : Option Kind :=
  [Kind.epoch, .clear, .close, .claim, .state, .stateReq, .presence].find? (fun k => k.code == c)

/-- The body lengths that suit a kind (R64). -/
def Kind.lengthOk (k : Kind) (n : Nat) : Bool :=
  match k with
  | .epoch    => n == 0
  | .clear    => n == 4
  | .close    => n == 2
  | .claim    => n == 4
  | .state    => 18 ≤ n && n ≤ 48 && n % 2 == 0
  | .stateReq => n == 3
  | .presence => n == 2

/-- The arbitration byte: kind code and sender address (R53). -/
def arbByte (k : Kind) (a : Addr) : Byte := k.code ++ a

/-- The flags byte: in-step flag, armed flag, body length (R176). -/
def flagsByte (inStep armed : Bool) (len : Nat) : Byte :=
  BitVec.ofBool inStep ++ BitVec.ofBool armed ++ BitVec.ofNat 6 len

/-- Byte 0 through the last body byte of a frame (R176). -/
def Frame.checked (f : Frame) : List Byte :=
  [arbByte f.kind f.header.sender, flagsByte f.header.inStep f.header.armed f.body.length]
    ++ be16 f.header.count ++ be16 f.header.digest ++ f.body

/-- The bytes of a frame, its CRC last (R176, R179). -/
def Frame.bytes (f : Frame) : List Byte := f.checked ++ be16 (crc16 Config.crcStart f.checked)

/-- The bits of a frame on PBD: a dominant start bit, the bytes, all stuffed, then three recessive bits
(R50, R53). -/
def Frame.wire (f : Frame) : List Bool :=
  stuff (false :: f.bytes.flatMap byteBits) ++ [true, true, true]

/-! ### Event records (R177) -/

/-- The state code (R177). -/
def RecordState.code : RecordState → BitVec 2
  | .opened   => 0
  | .accepted => 1
  | .dropped  => 2

/-- The cause code, 0 when absent (R177). -/
def causeCode : Option Closing → BitVec 2
  | none => 0
  | some c =>
    match c.cause with
    | .opener  => 1
    | .standIn => 2
    | .epoch   => 3

/-- The state-and-cause byte (R177). -/
def EventRecord.stateByte (r : EventRecord) : Byte :=
  0#2 ++ causeCode r.closing ++ 0#2 ++ r.state.code

/-- The closer byte, FFh while OPEN (R177). -/
def EventRecord.closerByte (r : EventRecord) : Byte :=
  match r.closing with
  | none => 0xFF#8
  | some c => addrByte c.closer

/-- The record payload (R177). -/
def EventRecord.payload (r : EventRecord) : List Byte :=
  be16 r.number ++ [r.epoch] ++ be24 r.t0
    ++ [addrByte r.opener, r.stateByte, r.closerByte, r.repeats, BitVec.ofNat 8 r.members.length]
    ++ be16 r.late ++ r.members.flatMap (fun m => [addrByte m.addr, m.offset])

/-- The state and cause a state-and-cause byte gives; none for a code R177 rules out. -/
def readStateByte (b : Byte) : Option (RecordState × Option Cause) :=
  if b = 0x00#8 then some (.opened, none)
  else if b = 0x11#8 then some (.accepted, some .opener)
  else if b = 0x21#8 then some (.accepted, some .standIn)
  else if b = 0x12#8 then some (.dropped, some .opener)
  else if b = 0x22#8 then some (.dropped, some .standIn)
  else if b = 0x32#8 then some (.dropped, some .epoch)
  else none

/-- The closing fields from the cause and the closer byte; none when R177 rules the closer out: a
closer must be FFh without a cause and an address with one, the opener's for OPENER and not the
opener's for STAND_IN. -/
def readClosing (opener : Addr) (cause : Option Cause) (closer : Byte) : Option (Option Closing) :=
  match cause, byteAddr closer with
  | none, _ => if closer = 0xFF#8 then some none else none
  | some .opener, some a => if a = opener then some (some ⟨.opener, a⟩) else none
  | some .standIn, some a => if a = opener then none else some (some ⟨.standIn, a⟩)
  | some .epoch, some a => some (some ⟨.epoch, a⟩)
  | some _, none => none

/-- Member pairs in join order; none for an address byte above 15 or an odd number of bytes. -/
def readMembers : List Byte → Option (List Member)
  | [] => some []
  | a :: o :: rest =>
    match byteAddr a, readMembers rest with
    | some addr, some ms => some (⟨addr, o⟩ :: ms)
    | _, _ => none
  | [_] => none

/-- A record read from its payload by the layout of R177; none when a byte holds what the layout does
not allow. The record has no local parts. -/
def readRecord : List Byte → Option EventRecord
  | n1 :: n0 :: ep :: t2 :: t1 :: t0 :: op :: sc :: cl :: rep :: cnt :: l1 :: l0 :: pairs =>
    match byteAddr op, readStateByte sc, readMembers pairs with
    | some opener, some (st, cause), some ms =>
      match readClosing opener cause cl with
      | some closing =>
        if ms.length = cnt.toNat then
          some { number := half n1 n0, epoch := ep, t0 := tick24 t2 t1 t0, opener := opener,
                 state := st, closing := closing, members := ms, repeats := rep,
                 late := half l1 l0, due := none, note := none }
        else none
      | none => none
    | _, _, _ => none
  | _ => none

/-! ### STATE bodies (R176) -/

/-- The payload of a snapshot header chunk with its tick (R176). -/
def SnapHeader.payload (h : SnapHeader) (tick : Tick) : List Byte :=
  be16 h.position ++ be16 h.digest ++ be16 h.next
    ++ [h.epoch, BitVec.ofNat 8 h.openCount, BitVec.ofNat 8 h.historyCount]
    ++ be24 tick ++ be16 h.fingerprint ++ [h.overflow, h.stale, h.void]

/-- A snapshot header and its tick read from the 17 payload bytes (R176). -/
def readSnapHeader : List Byte → Option (SnapHeader × Tick)
  | [p1, p0, d1, d0, n1, n0, ep, oc, hc, t2, t1, t0, f1, f0, ov, st, vo] =>
    some ({ position := half p1 p0, digest := half d1 d0, next := half n1 n0, epoch := ep,
            openCount := oc.toNat, historyCount := hc.toNat, fingerprint := half f1 f0,
            overflow := ov, stale := st, void := vo }, tick24 t2 t1 t0)
  | _ => none

/-- The fingerprint at its place in a header payload (R176). -/
def payloadFingerprint (payload : List Byte) : Half := half (payload.getD 12 0) (payload.getD 13 0)

/-- The body bytes of a chunk, a header's tick filled with `tick` (R54, R128, R176). -/
def Chunk.bytes (tick : Tick) (c : Chunk) : List Byte :=
  [addrByte c.target, BitVec.ofNat 8 c.index, BitVec.ofNat 8 c.total] ++
    match c.payload with
    | .header h => h.payload tick
    | .record r => r.payload

/-- The four parts of a STATE body (R176). -/
structure StateBody where
  target  : Byte
  index   : Byte
  total   : Byte
  payload : List Byte
  deriving DecidableEq, Repr

/-- A STATE body cut into its parts. -/
def readStateBody : List Byte → Option StateBody
  | t :: i :: n :: rest => some ⟨t, i, n, rest⟩
  | _ => none

/-! ### The board port (R178) -/

/-- The result codes (R178). -/
inductive Result where
  | ok | already | notConfigured | alreadyConfigured | badConfig | notInStep | notAllowed | noOrder
  | notFound | noStage | badRange | unknown
  deriving DecidableEq, Repr

/-- The byte of a result code (R178). -/
def Result.code : Result → Byte
  | .ok                => 0x00#8
  | .already           => 0x01#8
  | .notConfigured     => 0x02#8
  | .alreadyConfigured => 0x03#8
  | .badConfig         => 0x04#8
  | .notInStep         => 0x05#8
  | .notAllowed        => 0x06#8
  | .noOrder           => 0x07#8
  | .notFound          => 0x08#8
  | .noStage           => 0x09#8
  | .badRange          => 0x0A#8
  | .unknown           => 0x0B#8

/-- The step-state code of the status byte (R178). -/
def StepState.code : StepState → BitVec 3
  | .unconfigured => 0
  | .listening    => 1
  | .inStep       => 2
  | .outOfStep    => 3
  | .conflict     => 4
  | .mute         => 5

/-- The resync phase code (R178). -/
def RequesterPhase.code : RequesterPhase → Byte
  | .none         => 0
  | .requesting _ => 1
  | .receiving _  => 2
  | .retryWait _  => 3

/-- The presence code (R178). -/
def Presence.code : Presence → BitVec 2
  | .absent  => 0
  | .present => 1
  | .suspect => 2

/-- The order-note byte of a staged record (R178). -/
def noteByte : Option OrderNote → Byte
  | none           => 0xFF#8
  | some .noOrder  => 0x00#8
  | some .ordered  => 0x01#8
  | some .missed   => 0x02#8
  | some .disarmed => 0x03#8
  | some .notSeen  => 0x04#8

/-- The order record of TAKE_ORDER (R178). -/
def Order.bytes (o : Order) : List Byte :=
  be16 o.number ++ [o.epoch] ++ be24 o.t0 ++ [addrByte o.opener, BitVec.ofNat 8 o.members]

/-- A LIST_EVENTS entry (R165, R178). -/
def EventRecord.listEntry (r : EventRecord) : List Byte := be16 r.number ++ [r.stateByte]

/-- The staged record: payload and order-note byte (R166, R178). -/
def EventRecord.staged (r : EventRecord) : List Byte := r.payload ++ [noteByte r.note]

/-- The four bytes of a roster entry (R170, R178). -/
def RosterEntry.bytes (e : RosterEntry) : List Byte :=
  [0#1 ++ BitVec.ofBool e.mismatched ++ BitVec.ofBool e.armed ++ BitVec.ofBool e.inStep ++ 0#2
      ++ e.presence.code, e.disagreements] ++ be16 (e.heard.setWidth 16)

/-- The board port's command codes (R178). -/
def boardCodes : List Byte :=
  [0x11#8, 0x21#8, 0x22#8, 0x31#8, 0x41#8, 0x42#8, 0x43#8, 0x51#8, 0x52#8, 0x53#8, 0x61#8, 0x71#8,
   0x72#8, 0x7E#8]

end Sys2Proof.Machine
end

