-- ==== Sys2Proof/Decode.lean ====
section
/-! DEFINITION. Reading commands from bits. The table gives its rows no bits, so `decodeTableWord`
answers none. The bits the spec does give, those of frames on PBD (R50, R53, R64, R65, R176, R179) and
of commands on the board port (R159, R178), are read here into the commands they amount to. -/

namespace Sys2Proof

/-- The command a table word spells: none, since no row of the table gives bits. -/
def decodeTableWord (_nbits _w : Nat) : Option Instr := none

namespace Decode

open Sys2Proof.Machine

/-- The accepted command of a frame whose kind, length and CRC have passed (R66, R176). -/
def acceptedFrame (k : Kind) (h : Header) (body : List Byte) : Instr :=
  match k, body with
  | .epoch, []                  => .epochAccepted h
  | .clear, [a, b, c, e]        => .clearAccepted h (tick24 a b c) e
  | .close, [a, b]              => .closeAccepted h (half a b)
  | .claim, [a, b, c, e]        => .claimAccepted h (tick24 a b c) e
  | .state, bytes               => .stateAccepted h bytes
  | .stateReq, [a, b, n]        => .stateReqAccepted h (half a b) n
  | .presence, [a, b]           => .presenceAccepted h (half a b)
  | _, _                        => .frameDiscarded .length

/-- The header of a frame's first six bytes (R176). -/
def headerOf (b0 b1 c1 c0 d1 d0 : Byte) : Header :=
  { sender := b0.extractLsb' 0 4, inStep := b1.getLsbD 7, armed := b1.getLsbD 6,
    count := half c1 c0, digest := half d1 d0 }

/-- The bytes of a frame as the Bus Receiver takes them after removing the stuff bits: the kind test,
the length test, then the CRC (R64, R65, R176, R179). -/
def frame : List Byte → Instr
  | b0 :: b1 :: c1 :: c0 :: d1 :: d0 :: rest =>
    match kindOfCode (b0.extractLsb' 4 4) with
    | none => .frameDiscarded .kind
    | some k =>
      let len := (b1.extractLsb' 0 6).toNat
      if k.lengthOk len then
        let body := rest.take len
        if rest.drop len = be16 (crc16 Config.crcStart (b0 :: b1 :: c1 :: c0 :: d1 :: d0 :: body)) then
          acceptedFrame k (headerOf b0 b1 c1 c0 d1 d0) body
        else .frameDiscarded .crc
      else .frameDiscarded .length
  | _ => .frameDiscarded .length

/-- The bits of a frame from its start bit to its end field, `true` recessive: stuffing, the end field,
then the bytes (R50, R53, R65). -/
def wire (bits : List Bool) : Instr :=
  match unstuff (bits.take (bits.length - 3)) with
  | some (false :: payload) =>
    if bits.drop (bits.length - 3) = [true, true, true] then frame (bitsBytes payload)
    else .frameDiscarded .endField
  | _ => .frameDiscarded .stuffing

/-- The command the bytes of a transaction amount to once its last argument byte is in; none while an
argument byte is missing (R158, R159, R178). -/
def command : List Byte → Option Instr
  | [] => none
  | code :: args =>
    if code = 0x11#8 then
      match args with
      | [w, g, q, h, p1, p0, v] => some (.setConfig w g q h (half p1 p0) v)
      | _ => none
    else if code = 0x21#8 then some .arm
    else if code = 0x22#8 then some .disarm
    else if code = 0x31#8 then some .takeOrder
    else if code = 0x41#8 then some .listEvents
    else if code = 0x42#8 then
      match args with
      | [a, b] => some (.stageEvent (half a b))
      | _ => none
    else if code = 0x43#8 then
      match args with
      | [a, b] => some (.readStage a b)
      | _ => none
    else if code = 0x51#8 then some .readStatus
    else if code = 0x52#8 then
      match args with
      | [a, b] => some (.readCounters a b)
      | _ => none
    else if code = 0x53#8 then some .readRoster
    else if code = 0x61#8 then
      match args with
      | [a, b] => some (.ackFlags (half a b))
      | _ => none
    else if code = 0x71#8 then some .askClear
    else if code = 0x72#8 then some .askEpoch
    else if code = 0x7E#8 then some .restartStation
    else some (.unknownCommand code)

/-- The bytes the board shifts in for a command, code first (R178); none for a row that is no board
command. -/
def commandBytes : Instr → Option (List Byte)
  | .setConfig w g q h p v => some ([0x11#8, w, g, q, h] ++ be16 p ++ [v])
  | .arm                   => some [0x21#8]
  | .disarm                => some [0x22#8]
  | .takeOrder             => some [0x31#8]
  | .listEvents            => some [0x41#8]
  | .stageEvent number     => some (0x42#8 :: be16 number)
  | .readStage offset len  => some [0x43#8, offset, len]
  | .readStatus            => some [0x51#8]
  | .readCounters first n  => some [0x52#8, first, n]
  | .readRoster            => some [0x53#8]
  | .ackFlags mask         => some (0x61#8 :: be16 mask)
  | .askClear              => some [0x71#8]
  | .askEpoch              => some [0x72#8]
  | .restartStation        => some [0x7E#8]
  | .unknownCommand code   => some [code]
  | .pinReset | .resetRelease _ _ | .refArrival | .trigEdge | .transactionOpen _ | .transactionEnd
  | .statusByteEnd | .takeOrderCommit | .ackFlagsCommit | .restartStationCommit
  | .transmissionStart _ | .arbitrationLoss | .bitError | .deferredOfferAdmitted
  | .ownClaimCompletes | .ownCloseCompletes | .ownClearCompletes | .ownEpochCompletes
  | .ownStateCompletes | .ownStateReqCompletes | .ownPresenceCompletes | .frameDiscarded _
  | .claimAccepted _ _ _ | .closeAccepted _ _ | .clearAccepted _ _ _ | .epochAccepted _
  | .stateAccepted _ _ | .stateReqAccepted _ _ _ | .presenceAccepted _ _ | .closeDueReached
  | .claimExpiry | .presenceDue | .absence | .requestDeadline | .chunkDeadline | .retryTick
  | .answerDelayEnd | .listeningEnd | .lineIdle | .startBitTaken | .breakEnd | .responseEnd => none

end Decode

end Sys2Proof
end

