-- ==== Sys2Proof/Machine/Flags.lean ====
section
/-! DEFINITION. The sticky flags, the attention bit, ALERT and the sixteen counters (R163, R172, R174). -/

namespace Sys2Proof.Machine

/-! ### Saturating counts -/

/-- `x + n` on an 8-bit counter that saturates at 255 (Conventions, Counters). -/
def satAdd8 (x : Byte) (n : Nat) : Byte := BitVec.ofNat 8 (min 255 (x.toNat + n))

/-- `x + n` on a 16-bit counter that saturates at 65535 (Conventions, Counters). -/
def satAdd16 (x : Half) (n : Nat) : Half := BitVec.ofNat 16 (min 65535 (x.toNat + n))

/-! ### Sticky flags -/

/-- The nine sticky flags (R172). -/
inductive Flag where
  | claimRefused | orderMissed | ordersFlushed | leftStep | conflict | muted | diverged
  | selfAsserted | addressClash
  deriving DecidableEq, Repr

/-- The flag's bit in the ACK_FLAGS mask and copy (R178). -/
def Flag.mask : Flag → BitVec 9
  | .claimRefused  => 0x001#9
  | .orderMissed   => 0x002#9
  | .ordersFlushed => 0x004#9
  | .leftStep      => 0x008#9
  | .conflict      => 0x010#9
  | .muted         => 0x020#9
  | .diverged      => 0x040#9
  | .selfAsserted  => 0x080#9
  | .addressClash  => 0x100#9

/-- Some flag of `m` is clear in `s`: setting `m` is a transition (R163). -/
def State.newlySet (m : BitVec 9) (s : State) : Bool := m &&& ~~~s.flags != 0

/-- Sets the flags of `m`. A flag that goes from clear to set sets the attention bit and is noted
against the status byte being shifted out; a flag already set makes no transition (R163, R172). -/
def State.setFlags (m : BitVec 9) (s : State) : State :=
  { s with
    flags     := s.flags ||| m
    attention := s.attention || s.newlySet m
    port      := { s.port with fresh := s.port.fresh || s.newlySet m } }

/-- Sets one flag (R172). -/
def State.setFlag (f : Flag) (s : State) : State := s.setFlags f.mask

/-- Sets the flag when the condition holds. -/
def State.setFlagIf (b : Bool) (f : Flag) (s : State) : State := s.setFlags (if b then f.mask else 0)

/-- The flag is set (R172). -/
def State.hasFlag (f : Flag) (s : State) : Bool := s.flags &&& f.mask != 0

/-! ### Counters -/

/-- The sixteen counters (R174). -/
inductive Counter where
  | trigSeen | trigMerged | trigIgnored | claimsSent | claimsRefused | claimsWithdrawn | arbLosses
  | txAborts | txDiscards | rxBad | disagreements | resyncsDone | resyncsFailed | ordersIssued
  | ordersMissed | framesApplied
  deriving DecidableEq, Repr

/-- The counter's index (R174). -/
def Counter.index : Counter → Fin 16
  | .trigSeen => 0
  | .trigMerged => 1
  | .trigIgnored => 2
  | .claimsSent => 3
  | .claimsRefused => 4
  | .claimsWithdrawn => 5
  | .arbLosses => 6
  | .txAborts => 7
  | .txDiscards => 8
  | .rxBad => 9
  | .disagreements => 10
  | .resyncsDone => 11
  | .resyncsFailed => 12
  | .ordersIssued => 13
  | .ordersMissed => 14
  | .framesApplied => 15

/-- The value of a counter. -/
def Counters.read (c : Counter) (v : Counters) : Half := v.get c.index

/-- `n` rises of one counter, saturating (R174). -/
def Counters.rise (c : Counter) (n : Nat) (v : Counters) : Counters :=
  v.set c.index.val (satAdd16 (Counters.read c v) n) c.index.isLt

/-- `n` rises of one counter of the station. -/
def State.rise (c : Counter) (n : Nat) (s : State) : State :=
  { s with counters := Counters.rise c n s.counters }

/-- The value of one counter of the station. -/
def State.counter (c : Counter) (s : State) : Half := Counters.read c s.counters

/-! ### The output lines -/

/-- ALERT is asserted while a sticky flag is set, and never while RESETn is low (R172, R135). -/
def State.alertLine (s : State) : Bool := !s.inReset && s.flags != 0

/-- ORDER is asserted while the Order Queue holds an order, and never while RESETn is low (R153, R135). -/
def State.orderLine (s : State) : Bool := !s.inReset && !s.orders.isEmpty

end Sys2Proof.Machine
end

