-- ==== Sys2Proof/Machine/Ops.lean ====
section
/-! DEFINITION. The named operations every command is written over: tick arithmetic, address sets, the
roster, the outbox, the tick counter and its sets. Each operation on the state is ONE record update, so
that what it leaves alone is seen at once. -/

namespace Sys2Proof.Machine

/-! ### Tick and count arithmetic (Conventions) -/

/-- Tick `t + n`, modulo 2^24. -/
def tickPlus (t : Tick) (n : Nat) : Tick := t + BitVec.ofNat 24 n

/-- A due tick is reached when the counter equals it or is after it. -/
def reached (now due : Tick) : Bool := (now - due).toNat ≤ Config.tickHalfRange

/-- An optional due is present and reached. -/
def reachedOpt (now : Tick) : Option Tick → Bool
  | none => false
  | some due => reached now due

/-- The two ticks lie within distance `w`, end points included. -/
def within (w : Nat) (a b : Tick) : Bool := (a - b).toNat ≤ w || (b - a).toNat ≤ w

/-- Count `c` is before count `d`. -/
def countBefore (c d : Half) : Bool := 1 ≤ (d - c).toNat && (d - c).toNat ≤ Config.countHalfRange

/-- A member's offset: the signed difference of its stamp from T0 (R12). -/
def offsetOf (w : Nat) (stamp t0 : Tick) : Byte :=
  if (stamp - t0).toNat ≤ w then BitVec.ofNat 8 (stamp - t0).toNat
  else -BitVec.ofNat 8 (t0 - stamp).toNat

/-! ### Address sets -/

/-- The sixteen addresses in rising order. -/
def allAddrs : List Addr := [0, 1, 2, 3, 4, 5, 6, 7, 8, 9, 10, 11, 12, 13, 14, 15]

/-- The set that holds one address. -/
def addrBit (a : Addr) : AddrSet := (1 : AddrSet) <<< a.toNat

/-- `a` is in the set. -/
def hasAddr (s : AddrSet) (a : Addr) : Bool := s.getLsbD a.toNat

/-- The set with `a` added. -/
def addAddr (s : AddrSet) (a : Addr) : AddrSet := s ||| addrBit a

/-- The addresses of the set for which `p` holds not. -/
def dropAddrs (p : Addr → Bool) (s : AddrSet) : AddrSet :=
  allAddrs.foldl (fun acc a => if p a then acc &&& ~~~addrBit a else acc) s

/-- How many addresses the set holds. -/
def addrCount (s : AddrSet) : Nat := (allAddrs.filter (hasAddr s)).length

/-! ### The roster (R97) -/

/-- The entry of an address. -/
def Roster.entry (r : Roster) (a : Addr) : RosterEntry := r.get a.toFin

/-- Each entry changed by its address. -/
def Roster.update (f : Addr → RosterEntry → RosterEntry) (r : Roster) : Roster :=
  Vector.ofFn (fun i => f (BitVec.ofFin i) (r.get i))

/-- One entry changed. -/
def Roster.modify (a : Addr) (f : RosterEntry → RosterEntry) (r : Roster) : Roster :=
  r.update (fun b e => if b = a then f e else e)

/-! ### Kinds, bodies and the outbox (R68 to R72) -/

/-- The kind of an entry's body. -/
def Body.kind : Body → Kind
  | .epoch        => .epoch
  | .clear        => .clear
  | .close _      => .close
  | .claim _ _    => .claim
  | .state _      => .state
  | .stateReq _ _ => .stateReq
  | .presence _   => .presence

/-- CLAIM, STATE, STATE_REQ and PRESENCE take the general places (R68). -/
def Kind.general : Kind → Bool
  | .claim | .state | .stateReq | .presence => true
  | .epoch | .clear | .close => false

/-- CLAIM, CLOSE, CLEAR and EPOCH: the ordered frames. -/
def Kind.ordered : Kind → Bool
  | .claim | .close | .clear | .epoch => true
  | .state | .stateReq | .presence => false

/-- The entry's body is of the kind. -/
def Body.isKind (k : Kind) (b : Body) : Bool := b.kind == k

/-- General entries that stand in the outbox (R68). -/
def generalCount (es : List Entry) : Nat := (es.filter (fun e => e.body.kind.general)).length

/-- An entry as admitted: attempt count 0 and no mark (R70). -/
def Entry.fresh (b : Body) : Entry := { body := b, attempts := 0, sending := false, mark := false }

/-- Puts an entry in its place: kind priority, then admission order (R69). -/
def insertEntry (e : Entry) : List Entry → List Entry
  | [] => [e]
  | x :: xs =>
    if e.body.kind.code < x.body.kind.code then e :: x :: xs else x :: insertEntry e xs

/-- Puts a deferred offer in its place: kind order (R71). -/
def insertOffer (b : Body) : List Body → List Body
  | [] => [b]
  | x :: xs => if b.kind.code < x.kind.code then b :: x :: xs else x :: insertOffer b xs

/-- Admits deferred offers in kind order, one for each free general place; what stays deferred comes
second (R71). -/
def admitOffers : List Body → List Entry → List Entry × List Body
  | [], es => (es, [])
  | b :: bs, es =>
    if generalCount es < Config.maxGeneral then admitOffers bs (insertEntry (Entry.fresh b) es)
    else (es, b :: bs)

/-- The outbox holds an entry of the kind, in transmission or not. -/
def Transmitter.holds (k : Kind) (t : Transmitter) : Bool := t.outbox.any (fun e => e.body.isKind k)

/-- The outbox or the deferred offers hold the kind. -/
def Transmitter.queued (k : Kind) (t : Transmitter) : Bool := t.holds k || t.deferred.any (Body.isKind k)

/-- The CLOSE entries of the outbox. -/
def Transmitter.closeCount (t : Transmitter) : Nat := (t.outbox.filter (fun e => e.body.isKind .close)).length

/-- Admits an entry (R69, R70). -/
def Transmitter.admitEntry (b : Body) (t : Transmitter) : Transmitter :=
  { t with outbox := insertEntry (Entry.fresh b) t.outbox }

/-- Admits what deferred offers it can (R71). -/
def Transmitter.admitDeferred (t : Transmitter) : Transmitter :=
  { t with outbox := (admitOffers t.deferred t.outbox).1,
           deferred := (admitOffers t.deferred t.outbox).2 }

/-- The offer of a STATE, STATE_REQ or PRESENCE: not made while one of the kind stands admitted or
deferred, admitted while a general place is free, else deferred (R70, R71). -/
def Transmitter.offer (b : Body) (t : Transmitter) : Transmitter :=
  if t.queued b.kind then t
  else if generalCount t.outbox < Config.maxGeneral then t.admitEntry b
  else { t with deferred := insertOffer b t.deferred }

/-- A withdrawal request for the bodies `p` names: entries not in transmission go at once, the one in
transmission is marked, deferred offers go too; a general place that frees takes a deferred offer
(R71, R72). -/
def Transmitter.withdraw (p : Body → Bool) (t : Transmitter) : Transmitter :=
  Transmitter.admitDeferred
    { t with
      outbox   := (t.outbox.filter (fun e => !p e.body || e.sending)).map
                    (fun e => if p e.body then { e with mark := true } else e)
      deferred := t.deferred.filter (fun b => !p b) }

/-- The CLAIM entries a withdrawal request removes at once (R72). -/
def Transmitter.withdrawnClaims (p : Body → Bool) (t : Transmitter) : Nat :=
  (t.outbox.filter (fun e => p e.body && !e.sending && e.body.isKind .claim)).length

/-- The entry in transmission. -/
def Transmitter.sendingEntry (t : Transmitter) : Option Entry := t.outbox.find? Entry.sending

/-- The entry in transmission leaves the outbox, and a deferred offer may take its place. -/
def Transmitter.dropSending (t : Transmitter) : Transmitter :=
  Transmitter.admitDeferred { t with outbox := t.outbox.filter (fun e => !e.sending), onLine := none }

/-- The attempt ends without completing and without a discard: the entry is back in its place, `f`
applied to it, and removed when it carries a withdrawal mark (R56, R58, R72). -/
def Transmitter.returnSending (f : Entry → Entry) (t : Transmitter) : Transmitter :=
  Transmitter.admitDeferred
    { t with
      outbox := (t.outbox.filter (fun e => !(e.sending && e.mark))).map
                  (fun e => if e.sending then { f e with sending := false } else e)
      onLine := none }

/-- The CLAIM entries that go when the attempt of a marked entry ends (R72). -/
def Transmitter.returnedClaims (t : Transmitter) : Nat :=
  (t.outbox.filter (fun e => e.sending && e.mark && e.body.isKind .claim)).length

/-- Admits an entry to the station's outbox. -/
def State.admitEntry (b : Body) (s : State) : State := { s with tx := s.tx.admitEntry b }

/-- Offers a STATE, STATE_REQ or PRESENCE to the station's outbox. -/
def State.offer (b : Body) (s : State) : State := { s with tx := s.tx.offer b }

/-- A withdrawal request, each CLAIM removed counted in CLAIMS_WITHDRAWN (R72, R85). -/
def State.withdraw (p : Body → Bool) (s : State) : State :=
  { s with
    tx       := s.tx.withdraw p
    counters := Counters.rise .claimsWithdrawn (s.tx.withdrawnClaims p) s.counters }

/-! ### Step states -/

/-- Every step state but UNCONFIGURED (R44). -/
def State.configured (s : State) : Bool := s.stepState != .unconfigured

/-- The two states in which ordered frames are applied on arrival (R1). -/
def State.applies (s : State) : Bool := s.stepState == .inStep || s.stepState == .mute

/-- The two states in which the station transmits (R55). -/
def State.transmits (s : State) : Bool := s.stepState == .inStep || s.stepState == .outOfStep

/-- A dominant level was on the line, or a frame has just ended: the Transmitter and the Receiver begin
their counts of recessive bit times afresh (R52). -/
def State.lineBusy (s : State) : State := { s with tx := { s.tx with recessive := 0 }, rxRecessive := 0 }

/-- The line has been recessive for `n` bit times in a row: the Transmitter's and the Receiver's own counts
stand at `n` at least (R52). -/
def State.lineRecessive (n : Nat) (s : State) : State :=
  { s with tx := { s.tx with recessive := max s.tx.recessive n }, rxRecessive := max s.rxRecessive n }

/-! ### Sets of the tick counter (R75, R78, R102, R115, R140) -/

/-- A deadline keeps the ticks that remained to it (R115). -/
def rebase (old new due : Tick) : Tick := new + (due - old)

/-- The requester's deadlines at a set of the counter (R115). -/
def RequesterPhase.rebase (old new : Tick) : RequesterPhase → RequesterPhase
  | .none         => .none
  | .requesting d => .requesting (d.map (Machine.rebase old new))
  | .receiving c  => .receiving { c with deadline := Machine.rebase old new c.deadline }
  | .retryWait r  => .retryWait (Machine.rebase old new r)

/-- The responder's deadline at a set of the counter (R115). -/
def ResponderPhase.rebase (old new : Tick) : ResponderPhase → ResponderPhase
  | .idle              => .idle
  | .delay t e         => .delay t (Machine.rebase old new e)
  | .sending t b n i h => .sending t b n i h

/-- A present or suspect peer's absence timing starts afresh at a set of the counter (R102). -/
def RosterEntry.rebase (new : Tick) (e : RosterEntry) : RosterEntry :=
  if e.presence = .absent then e else { e with heard := new }

/-- The Timebase sets the counter (R75): the last claimed trigger becomes absent (R78), the timing of
absence and of PRESENCE starts afresh (R102), and every deadline keeps its remaining ticks (R115, R140).
No block's test after the set finds a due reached (log 6), so none is made here. -/
def State.setTick (new : Tick) (s : State) : State :=
  { s with
    tick         := new
    lastClaimed  := none
    roster       := s.roster.update (fun _ e => e.rebase new)
    lastSent     := new
    listeningEnd := s.listeningEnd.map (rebase s.tick new)
    requester    := { s.requester with phase := s.requester.phase.rebase s.tick new }
    responder    := { s.responder with phase := s.responder.phase.rebase s.tick new } }

/-! ### The Order Queue (R151, R152, R156) -/

/-- An order with the number stands in the queue. -/
def ordersHave (n : Half) (q : List QueuedOrder) : Bool := q.any (fun o => o.order.number == n)

/-- The queue without the orders of the number (R152). -/
def ordersWithout (n : Half) (q : List QueuedOrder) : List QueuedOrder :=
  q.filter (fun o => o.order.number != n)

/-- How the Order Queue answers an offer, by the first case that holds (R151). -/
inductive OfferAnswer where
  | disarmed | superseded | full | room
  deriving DecidableEq, Repr

/-- The answer to an offer of number `n` (R151). -/
def State.orderAnswer (n : Half) (s : State) : OfferAnswer :=
  if !s.armed then .disarmed
  else if ordersHave n s.orders then .superseded
  else if Config.maxOrders ≤ s.orders.length then .full
  else .room

/-- The order note that goes with an answer (R36, R151). -/
def OfferAnswer.note : OfferAnswer → OrderNote
  | .disarmed   => .disarmed
  | .superseded => .ordered
  | .full       => .missed
  | .room       => .ordered

/-- The Order Queue takes an offer (R151, R152). -/
def State.offerOrder (o : Order) (s : State) : State :=
  match s.orderAnswer o.number with
  | .disarmed   => s
  | .superseded =>
    ({ s with orders := ordersWithout o.number s.orders ++ [QueuedOrder.mk o false] }.rise .ordersIssued 1).setFlag
      .ordersFlushed
  | .full       => (s.rise .ordersMissed 1).setFlag .orderMissed
  | .room       => { s with orders := s.orders ++ [QueuedOrder.mk o false] }.rise .ordersIssued 1

/-- The flush at an applied CLEAR: the queue is emptied, and ORDERS_FLUSHED is set when it held an order
(R40, R156). -/
def State.flushOrders (s : State) : State :=
  { s.setFlagIf (!s.orders.isEmpty) .ordersFlushed with orders := [] }

end Sys2Proof.Machine
end

