-- ==== Sys2Proof/Machine/Engine.lean ====
section
/-! DEFINITION. The Agreement Engine and its Close Scheduler: close dues, the application of CLAIM,
CLOSE, CLEAR and EPOCH, and their local effects (chapters 1 and 2). -/

namespace Sys2Proof.Machine

/-! ### Lists -/

/-- The first element `p` holds of, changed by `f`; none when there is none. -/
def updateFirst {α : Type} (p : α → Bool) (f : α → α) : List α → Option (List α)
  | [] => none
  | x :: xs => if p x then some (f x :: xs) else (updateFirst p f xs).map (x :: ·)

/-- The first element `p` holds of, and the list without it. -/
def takeFirst {α : Type} (p : α → Bool) : List α → Option (α × List α)
  | [] => none
  | x :: xs => if p x then some (x, xs) else (takeFirst p xs).map (fun q => (q.1, x :: q.2))

/-! ### Close dues (R29 to R32) -/

/-- The due of a record opened by `opener` at `t0`, at the station `own`: its opener closes G ticks after
the window, a stand-in (own address + 2) × G after it (R30). -/
def closeDue (p : Params) (own opener : Addr) (t0 : Tick) : Tick :=
  if opener = own then tickPlus t0 (p.w.toNat + p.g.toNat)
  else tickPlus t0 (p.w.toNat + (own.toNat + 2) * p.g.toNat)

/-- Queues a CLOSE for each open record whose due is reached and which has no CLOSE entry, in opening
order, within the class limits (R32, R68). -/
def Transmitter.scheduleCloses (now : Tick) : List EventRecord → Transmitter → Transmitter
  | [], t => t
  | r :: rs, t =>
    Transmitter.scheduleCloses now rs
      (if reachedOpt now r.due && !t.outbox.any (fun e => e.body == .close r.number)
          && t.closeCount < Config.maxClose then t.admitEntry (.close r.number)
       else t)

/-- The Close Scheduler checks its dues (R32). -/
def State.scheduleCloses (s : State) : State :=
  { s with
    tx := if s.stepState = .inStep then Transmitter.scheduleCloses s.tick s.table.slots s.tx else s.tx }

/-- Every close due is discarded (R29). -/
def State.dropDues (s : State) : State :=
  { s with table := { s.table with slots := s.table.slots.map (fun r => { r with due := none }) } }

/-- On entry into IN_STEP: a due for every open record, and a CLOSE at once for each already reached
(R31, R32). -/
def State.computeDues (s : State) : State :=
  State.scheduleCloses
    { s with
      table := { s.table with
        slots := s.table.slots.map
          (fun r => { r with due := some (closeDue s.params s.addr r.opener r.t0) }) } }

/-! ### The table (R3 to R8, R17 to R20) -/

/-- The table at RESTART_STATION and at founding: empty, digest the fingerprint (R8). -/
def Table.founding (fingerprint : Half) : Table := { Table.reset with digest := fingerprint }

/-- Step 2 of R21 for a CLAIM, CLOSE or EPOCH: the count rises and the digest is extended (R3, R4). -/
def Table.advance (bytes : List Byte) (t : Table) : Table :=
  { t with count := t.count + 1, digest := crc16 t.digest bytes }

/-- History with a record entered at the tail, the oldest evicted first when it is full (R18). -/
def pushHistory (h : List EventRecord) (r : EventRecord) : List EventRecord :=
  if Config.maxHistory ≤ h.length then h.drop 1 ++ [r] else h ++ [r]

/-- The number is held by a record of the table (R20). -/
def Table.heldNumber (t : Table) (n : Half) : Bool :=
  (t.slots ++ t.history).any (fun r => r.number == n)

/-- The first number from `n` on that is not held, looked for `fuel` numbers far (R20). -/
def freeNumber (held : Half → Bool) : Nat → Half → Half
  | 0, n => n
  | fuel + 1, n => if held n then freeNumber held fuel (n + 1) else n

/-- The number the next opened record takes: held numbers are passed over (R20). -/
def Table.nextNumber (t : Table) : Half :=
  freeNumber t.heldNumber (t.slots ++ t.history).length t.next

/-- The digested bytes of a frame (R22). -/
def digestedBytes (sender : Addr) : Sequenced → List Byte
  | .claim stamp epoch => arbByte .claim sender :: (be24 stamp ++ [epoch])
  | .close number      => arbByte .close sender :: be16 number
  | .epoch             => [arbByte .epoch sender]

/-! ### CLAIM (R23 to R27) -/

/-- The address is a member of the record. -/
def EventRecord.isMember (a : Addr) (r : EventRecord) : Bool := r.members.any (fun m => m.addr == a)

/-- The claim falls in the record's window (R24, R25). -/
def EventRecord.matchesClaim (w : Nat) (epoch : Byte) (stamp : Tick) (r : EventRecord) : Bool :=
  r.epoch == epoch && within w stamp r.t0

/-- A claim that matches an open record repeats or joins (R24). -/
def EventRecord.join (w : Nat) (sender : Addr) (stamp : Tick) (r : EventRecord) : EventRecord :=
  if r.isMember sender then { r with repeats := satAdd8 r.repeats 1 }
  else { r with members := r.members ++ [⟨sender, offsetOf w stamp r.t0⟩] }

/-- A claim that matches a history record repeats or falls late (R25). -/
def EventRecord.joinLate (sender : Addr) (r : EventRecord) : EventRecord :=
  if r.isMember sender then { r with repeats := satAdd8 r.repeats 1 }
  else { r with late := addAddr r.late sender }

/-- The record a claim opens (R26). -/
def openedRecord (number : Half) (epoch : Byte) (stamp : Tick) (sender : Addr) (due : Option Tick) :
    EventRecord :=
  { number := number, epoch := epoch, t0 := stamp, opener := sender, state := .opened,
    closing := none, members := [⟨sender, 0⟩], repeats := 0, late := 0, due := due, note := none }

/-- What a claim finds, by the first of the five tests it meets (R23 to R27). -/
inductive ClaimEffect where
  /-- another epoch (R23) -/
  | stale
  /-- an open record, with the slots after it (R24) -/
  | openMatch (slots : List EventRecord)
  /-- a history record, with the history after it (R25) -/
  | historyMatch (history : List EventRecord)
  /-- a new record (R26) -/
  | opens
  /-- no slot free (R27) -/
  | overflow
  deriving DecidableEq, Repr

/-- The five tests in their order (1.6). -/
def Table.claimEffect (w : Nat) (sender : Addr) (stamp : Tick) (epoch : Byte) (t : Table) : ClaimEffect :=
  if epoch ≠ t.epoch then .stale
  else
    match updateFirst (EventRecord.matchesClaim w t.epoch stamp) (EventRecord.join w sender stamp) t.slots with
    | some slots => .openMatch slots
    | none =>
      match updateFirst (EventRecord.matchesClaim w t.epoch stamp) (EventRecord.joinLate sender) t.history with
      | some history => .historyMatch history
      | none => if t.slots.length < Config.maxOpen then .opens else .overflow

/-- The table after a claim's effect, `due` being the close due of a record it opens. -/
def Table.claim (sender : Addr) (stamp : Tick) (due : Option Tick) (t : Table) : ClaimEffect → Table
  | .stale          => { t with stale := satAdd8 t.stale 1 }
  | .openMatch sl   => { t with slots := sl }
  | .historyMatch h => { t with history := h }
  | .opens          =>
    { t with slots := t.slots ++ [openedRecord t.nextNumber t.epoch stamp sender due],
             next := t.nextNumber + 1 }
  | .overflow       => { t with overflow := satAdd8 t.overflow 1 }

/-- The due a record opened now takes: one at an IN_STEP station, else none (R15, R26, R31). -/
def State.openingDue (opener : Addr) (t0 : Tick) (s : State) : Option Tick :=
  if s.stepState = .inStep then some (closeDue s.params s.addr opener t0) else none

/-- The kind-specific effect of a CLAIM; a record it opens may be due at once (R26, R32). -/
def State.applyClaim (sender : Addr) (stamp : Tick) (epoch : Byte) (s : State) : State :=
  let effect := s.table.claimEffect s.params.w.toNat sender stamp epoch
  let s1 := { s with table := s.table.claim sender stamp (s.openingDue sender stamp) effect }
  if effect = .opens then s1.scheduleCloses else s1

/-! ### CLOSE (R33 to R37) -/

/-- The closing fields of a CLOSE from `sender` (R34). -/
def closeCause (r : EventRecord) (sender : Addr) : Cause := if r.opener = sender then .opener else .standIn

/-- The record meets the quorum (R34). -/
def EventRecord.meets (q : Nat) (r : EventRecord) : Bool := q ≤ r.members.length

/-- The record as a CLOSE from `sender` leaves it, with its order note (R34, R35). -/
def EventRecord.closed (q : Nat) (sender : Addr) (note : OrderNote) (r : EventRecord) : EventRecord :=
  { r with
    state   := if r.meets q then .accepted else .dropped
    closing := some ⟨closeCause r sender, sender⟩
    due     := none
    note    := some note }

/-- The capture order of an accepted record (R36, R149). -/
def EventRecord.order (r : EventRecord) : Order :=
  { number := r.number, epoch := r.epoch, t0 := r.t0, opener := r.opener, members := r.members.length }

/-- The note a CLOSE leaves: the Order Queue's answer to an accepted record, NONE for a dropped one
(R35, R36). -/
def State.closeNote (r : EventRecord) (s : State) : OrderNote :=
  if r.meets s.params.q.toNat then (s.orderAnswer r.number).note else .noOrder

/-- The kind-specific effect of a CLOSE: it closes the open record with the number, or it is void; in
both cases the CLOSE entry for the number is withdrawn (R33 to R37). -/
def State.applyClose (sender : Addr) (number : Half) (s : State) : State :=
  match takeFirst (fun r => r.number == number) s.table.slots with
  | none =>
    State.withdraw (· == .close number) { s with table := { s.table with void := satAdd8 s.table.void 1 } }
  | some (r, rest) =>
    let s1 := { s with
      table := { s.table with
        slots   := rest
        history := pushHistory s.table.history (r.closed s.params.q.toNat sender (s.closeNote r)) } }
    let s2 := if r.meets s.params.q.toNat then s1.offerOrder r.order else s1
    s2.withdraw (· == .close number)

/-! ### EPOCH (R45, R46) -/

/-- A record closed by an EPOCH (R45). -/
def EventRecord.droppedByEpoch (sender : Addr) (r : EventRecord) : EventRecord :=
  { r with state := .dropped, closing := some ⟨.epoch, sender⟩, due := none, note := some .noOrder }

/-- The table after an EPOCH: the epoch rises and every open record enters history, in opening order
(R19, R45). -/
def Table.epochEnds (sender : Addr) (t : Table) : Table :=
  { t with
    epoch   := t.epoch + 1
    slots   := []
    history := (t.slots.map (EventRecord.droppedByEpoch sender)).foldl pushHistory t.history }

/-- The kind-specific effect of an EPOCH: the table effect, and in IN_STEP and MUTE every CLOSE entry
withdrawn (R45, R46). -/
def State.applyEpoch (sender : Addr) (s : State) : State :=
  let s1 := { s with table := s.table.epochEnds sender }
  if s1.applies then s1.withdraw (Body.isKind .close) else s1

/-! ### One ordered frame (R21) -/

/-- Applies a CLAIM, CLOSE or EPOCH: FRAMES_APPLIED, the count and the digest, then the kind's own effect
(R21). -/
def State.applyFrame (sender : Addr) (body : Sequenced) (s : State) : State :=
  let s1 := { s.rise .framesApplied 1 with table := s.table.advance (digestedBytes sender body) }
  match body with
  | .claim stamp epoch => s1.applyClaim sender stamp epoch
  | .close number      => s1.applyClose sender number
  | .epoch             => s1.applyEpoch sender

/-! ### CLEAR (R39, R40) -/

/-- The table after a CLEAR: the founding values, the epoch kept (R39). -/
def Table.cleared (fingerprint : Half) (t : Table) : Table :=
  { Table.founding fingerprint with epoch := t.epoch }

/-- The responder abandons its context: IDLE, no latch, and its STATE entry or deferred offer withdrawn
(R131). -/
def State.abandonResponder (s : State) : State :=
  { s with responder := Responder.idle }.withdraw (Body.isKind .state)

/-- Applies a CLEAR: FRAMES_APPLIED, the table of R39, and the local changes of R40. -/
def State.applyClear (s : State) : State :=
  let s1 := { s.rise .framesApplied 1 with table := s.table.cleared s.fingerprint, streak := 0 }
  State.abandonResponder (s1.flushOrders.withdraw (Body.isKind .close))

/-! ### EPOCH arrival (R44) -/

/-- The arrival effects of an EPOCH in a configured state: the counter is set to 0 and every CLAIM entry
is withdrawn (R44). -/
def State.epochArrival (s : State) : State :=
  if s.configured then (s.setTick 0).withdraw (Body.isKind .claim) else s

end Sys2Proof.Machine
end

