-- ==== Sys2Proof/Machine/Resync.lean ====
section
/-! DEFINITION. The Resync Unit: the requester with its hold queue, the install, failure and retry,
CONFLICT, and the responder (chapter 6). -/

namespace Sys2Proof.Machine

/-! ### Requests (R107 to R109) -/

/-- The STATE_REQ entry of the present attempt (R107). -/
def State.requestBody (s : State) : Body := .stateReq s.fingerprint s.requester.attempt

/-- Offers the STATE_REQ of the present attempt (R107, R109). -/
def State.offerRequest (s : State) : State := s.offer s.requestBody

/-- The requester context opens: REQUESTING, attempt 1, a STATE_REQ offered (R107). -/
def State.openRequester (s : State) : State :=
  State.offerRequest
    { s with requester := { phase := .requesting none, attempt := 1, unanswered := 0, hold := [] } }

/-- The next attempt: the count raised, REQUESTING with the request not sent, a STATE_REQ offered
(R107, R123). -/
def State.nextAttempt (s : State) : State :=
  State.offerRequest
    { s with requester := { s.requester with
        phase := .requesting none, attempt := satAdd8 s.requester.attempt 1 } }

/-! ### Self-assert (R124) -/

/-- An address of a peer whose presence is PRESENT. -/
def State.peerPresent (s : State) (a : Addr) : Bool :=
  a != s.addr && (s.roster.entry a).presence == .present

/-- The self-assert check: no peer PRESENT with its in-step flag set and no mark, and no PRESENT peer of
a lower address (R124). -/
def State.selfAsserts (s : State) : Bool :=
  allAddrs.all (fun a => !(s.peerPresent a)
    || (!((s.roster.entry a).inStep && !(s.roster.entry a).mismatched) && s.addr < a))

/-- The station returns to step with its own table (R124). -/
def State.selfAssert (s : State) : State :=
  State.computeDues { s.setFlag .selfAsserted with stepState := .inStep, requester := Requester.idle }

/-! ### Failure and retry (R122, R123) -/

/-- Why an attempt fails (R122). -/
inductive FailKind where
  | unanswered | overflow | badChunk | chunkTimeout | gap
  deriving DecidableEq, Repr

/-- The unanswered count after a failure (R122). -/
def unansweredAfter (k : FailKind) (n : Nat) : Nat :=
  if k = .unanswered then min Config.maxUnanswered (n + 1) else 0

/-- An attempt fails: counted, the collection and the chunk context dropped, the unanswered count
brought up to date (R122), then the next request is decided (R123). -/
def State.fail (k : FailKind) (s : State) : State :=
  let n := unansweredAfter k s.requester.unanswered
  let s1 := { s.rise .resyncsFailed 1 with
    requester := { s.requester with phase := .requesting none, unanswered := n, hold := [] } }
  if n < Config.maxUnanswered then s1.nextAttempt
  else if s1.selfAsserts then s1.selfAssert
  else { s1 with requester := { s1.requester with
           phase := .retryWait (tickPlus s1.tick Config.retrySpan) } }

/-! ### The hold queue (R110, R111) -/

/-- Collection runs: the request has been sent, or chunks are being received (R110). -/
def Requester.collecting (r : Requester) : Bool :=
  match r.phase with
  | .requesting (some _) => true
  | .receiving _         => true
  | _                    => false

/-- A CLAIM, CLOSE or EPOCH that arrives at an OUT_OF_STEP station: held while collection runs, a
seventeenth fails the attempt, else dropped (R110, R111). -/
def State.holdFrame (sender : Addr) (body : Sequenced) (count : Half) (s : State) : State :=
  if s.requester.collecting then
    if s.requester.hold.length < Config.maxHold then
      { s with requester := { s.requester with
          hold := s.requester.hold ++ [⟨sender, body, count⟩] } }
    else s.fail .overflow
  else s

/-! ### CLEAR out of step (R41) -/

/-- A CLEAR at an OUT_OF_STEP station: the requester abandoned and its STATE_REQ withdrawn, the CLEAR
applied with the epoch and tick it carries, IN_STEP (R41). -/
def State.clearOutOfStep (tick : Tick) (epoch : Byte) (s : State) : State :=
  let s1 := State.applyClear ({ s with requester := Requester.idle }.withdraw (Body.isKind .stateReq))
  let s2 := State.setTick (tickPlus tick 1) { s1 with table := { s1.table with epoch := epoch } }
  State.computeDues { s2 with stepState := .inStep }

/-! ### CONFLICT (R132) -/

/-- Entry into CONFLICT (R132). -/
def State.enterConflict (s : State) : State :=
  { (s.setFlag .conflict).withdraw (fun _ => true) with
    stepState := .conflict, requester := Requester.idle, roster := Roster.blank }

/-! ### The header (R113, R114) -/

/-- The tests a header whose fingerprint agrees must pass (R114). -/
def headerOk (bodyLength : Nat) (total : Nat) (h : SnapHeader) : Bool :=
  bodyLength == 20 && h.openCount ≤ Config.maxOpen && h.historyCount ≤ Config.maxHistory
    && total == 1 + h.openCount + h.historyCount

/-- The header is taken: the responder and the header values are recorded, the counter is set from the
carried tick, RECEIVING begins with chunk 1 expected (R114). -/
def State.takeHeader (sender : Addr) (total : Nat) (h : SnapHeader) (tick : Tick) (s : State) : State :=
  let s1 := State.setTick (tickPlus tick 1)
    { s with requester := { s.requester with phase := .requesting none, unanswered := 0 } }
  { s1 with requester := { s1.requester with
      phase := .receiving
        { responder := sender, header := h, total := total, expected := 1, records := [],
          deadline := tickPlus s1.tick Config.chunkSpan } } }

/-! ### Record chunks (R117) -/

/-- The member tests of R117: 1 to 16 pairs, the opener first with offset 0, no address twice, every
offset in −W..+W. -/
def membersOk (w : Nat) (opener : Addr) (ms : List Member) : Bool :=
  1 ≤ ms.length && ms.length ≤ Config.maxMembers && ms.head? == some ⟨opener, 0⟩
    && (ms.map Member.addr).Nodup
    && ms.all (fun m => -(w : Int) ≤ m.offset.toInt && m.offset.toInt ≤ (w : Int))

/-- A record chunk read and tested by R117 and R177: `opened` says that its index is at most the open
count, `epoch` is the header's, `taken` are the records already received. -/
def checkRecord (w : Nat) (opened : Bool) (epoch : Byte) (taken : List EventRecord)
    (payload : List Byte) : Option EventRecord :=
  match readRecord payload with
  | none => none
  | some r =>
    if ((r.state == .opened) == opened)
        && (!opened || r.epoch == epoch)
        && membersOk w r.opener r.members
        && r.members.all (fun m => !hasAddr r.late m.addr)
        && (!opened || r.late == 0)
        && taken.all (fun o => o.number != r.number) then
      some r
    else none

/-! ### Install (R118 to R121) -/

/-- The walk of the hold queue: the frames marked for application, or none at a gap (R118). -/
def walk (running : Half) : List Held → Option (List Held)
  | [] => some []
  | f :: fs =>
    if f.count = running then (walk (running + 1) fs).map (f :: ·)
    else if countBefore f.count running then walk running fs
    else if countBefore running f.count then none
    else if Config.heldAtHalfRangeDiscarded running f.count then walk running fs
    else none

/-- The table the snapshot describes, history noted NOT_SEEN (R119). -/
def installedTable (h : SnapHeader) (records : List EventRecord) : Table :=
  { count := h.position, digest := h.digest, next := h.next, epoch := h.epoch,
    overflow := h.overflow, stale := h.stale, void := h.void,
    slots   := records.take h.openCount,
    history := (records.drop h.openCount).map (fun r => { r with note := some .notSeen }) }

/-- The held frames applied in order (R120). -/
def State.applyHeld : List Held → State → State
  | [], s => s
  | f :: fs, s => State.applyHeld fs (s.applyFrame f.sender f.body)

/-- The install: a gap fails the attempt; otherwise the table is replaced, the marked frames are applied
and the station is IN_STEP (R118 to R121). -/
def State.install (h : SnapHeader) (records : List EventRecord) (s : State) : State :=
  match walk h.position s.requester.hold with
  | none => s.fail .gap
  | some marked =>
    let s1 := State.applyHeld marked { s with table := installedTable h records }
    State.computeDues { s1.rise .resyncsDone 1 with stepState := .inStep, requester := Requester.idle }

/-! ### STATE frames at the requester (R112, R116) -/

/-- A header addressed to this station in REQUESTING with the request sent (R113, R114). -/
def State.examineHeader (sender : Addr) (bodyLength : Nat) (b : StateBody) (s : State) : State :=
  if payloadFingerprint b.payload ≠ s.fingerprint then s.enterConflict
  else
    match readSnapHeader b.payload with
    | none => s.fail .badChunk
    | some (h, tick) =>
      if headerOk bodyLength b.total.toNat h then
        let s1 := s.takeHeader sender b.total.toNat h tick
        if b.total.toNat = 1 then s1.install h [] else s1
      else s.fail .badChunk

/-- A chunk from the recorded responder, addressed to this station, in RECEIVING (R116, R117). -/
def State.takeChunk (c : Receiving) (bodyLength : Nat) (b : StateBody) (s : State) : State :=
  if b.index.toNat ≠ c.expected then s.fail .badChunk
  else if b.total.toNat ≠ c.total then s.fail .badChunk
  else
    match checkRecord s.params.w.toNat (c.expected ≤ c.header.openCount) c.header.epoch c.records b.payload with
    | none => s.fail .badChunk
    | some r =>
      if bodyLength ≠ 16 + 2 * r.members.length then s.fail .badChunk
      else
        let c1 := { c with records := c.records ++ [r], expected := c.expected + 1,
                           deadline := tickPlus s.tick Config.chunkSpan }
        if c1.expected = c1.total then s.install c1.header c1.records
        else { s with requester := { s.requester with phase := .receiving c1 } }

/-- A STATE frame at an OUT_OF_STEP station (R112). -/
def State.requesterState (sender : Addr) (bodyLength : Nat) (b : StateBody) (s : State) : State :=
  if b.target ≠ addrByte s.addr then s
  else
    match s.requester.phase with
    | .requesting (some _) => if b.index = 0 then s.examineHeader sender bodyLength b else s
    | .receiving c         => if sender = c.responder then s.takeChunk c bodyLength b else s
    | _                    => s

/-! ### The responder (R126 to R130) -/

/-- The end of an answer delay that starts now (R126). -/
def State.delayEnd (s : State) : Tick := tickPlus s.tick (4 * (s.addr.toNat + 1))

/-- The service has ended: the latched address is taken into a new delay, or the phase is IDLE (R127,
R129, R130). -/
def State.takeLatch (s : State) : State :=
  { s with responder :=
      match s.responder.latch with
      | some a => { phase := .delay a s.delayEnd, latch := none }
      | none   => Responder.idle }

/-- A STATE_REQ from peer `a` at an IN_STEP station (R126). -/
def State.requestHeard (a : Addr) (s : State) : State :=
  if a = s.addr then s
  else
    { s with responder :=
        match s.responder.phase with
        | .idle => { s.responder with phase := .delay a s.delayEnd }
        | .delay t _ =>
          if t ≠ a ∧ s.responder.latch = none then { s.responder with latch := some a } else s.responder
        | .sending t _ _ _ _ =>
          if t ≠ a ∧ s.responder.latch = none then { s.responder with latch := some a } else s.responder }

/-- A peer's header for target `t` at an IN_STEP station: a latch that holds `t` is emptied, and a
responder that has not yet sent its own header to `t` stands down (R127). -/
def State.headerHeard (t : Addr) (s : State) : State :=
  let s1 := if s.responder.latch = some t then
              { s with responder := { s.responder with latch := none } } else s
  match s1.responder.phase with
  | .delay u _ => if u = t then s1.takeLatch else s1
  | .sending u _ _ _ false => if u = t then (s1.withdraw (Body.isKind .state)).takeLatch else s1
  | _ => s1

/-- A STATE frame at an IN_STEP station (R127). -/
def State.responderState (b : StateBody) (s : State) : State :=
  if b.index = 0 then
    match byteAddr b.target with
    | some t => s.headerHeard t
    | none   => s
  else s

/-- The record as a snapshot carries it: no close due and no order note (R128). -/
def EventRecord.replicated (r : EventRecord) : EventRecord := { r with due := none, note := none }

/-- The snapshot of the table at this instant (R128). -/
def State.snapshot (s : State) : Snapshot :=
  { header :=
      { position := s.table.count, digest := s.table.digest, next := s.table.next,
        epoch := s.table.epoch, openCount := s.table.slots.length,
        historyCount := s.table.history.length, fingerprint := s.fingerprint,
        overflow := s.table.overflow, stale := s.table.stale, void := s.table.void },
    records := (s.table.slots ++ s.table.history).map EventRecord.replicated }

/-- The chunk of an index of a snapshot: the header at 0, the records after it (R128). -/
def Snapshot.chunk (target : Addr) (total index : Nat) (b : Snapshot) : Chunk :=
  { target := target, index := index, total := total,
    payload :=
      match index with
      | 0 => .header b.header
      | i + 1 =>
        match b.records[i]? with
        | some r => .record r
        | none   => .header b.header }

/-- The delay has ended: the snapshot is taken and its header offered (R128). -/
def State.beginService (target : Addr) (s : State) : State :=
  let b := s.snapshot
  let total := 1 + b.records.length
  State.offer (.state (b.chunk target total 0))
    { s with responder := { s.responder with phase := .sending target b total 0 false } }

/-- The station's own STATE frame has completed: the next chunk is offered, or the service ends (R129). -/
def State.chunkSent (s : State) : State :=
  match s.responder.phase with
  | .sending t b total next sent =>
    if next + 1 < total then
      State.offer (.state (b.chunk t total (next + 1)))
        { s with responder := { s.responder with
            phase := .sending t b total (next + 1) (sent || next == 0) } }
    else s.takeLatch
  | _ => s

/-- The station's STATE entry has been discarded: the service ends (R130). -/
def State.chunkDiscarded (s : State) : State :=
  match s.responder.phase with
  | .sending _ _ _ _ _ => s.takeLatch
  | _ => s

end Sys2Proof.Machine
end

