-- ==== Sys2Proof/Machine/Monitor.lean ====
section
/-! DEFINITION. The Step Monitor: recording, the vote, leaving step, joining, MUTE, absence, PRESENCE,
founding; and the hand-on of an accepted or completed frame to its owner (chapters 3, 5 and 7). -/

namespace Sys2Proof.Machine

/-! ### PRESENCE (R103) -/

/-- The tick at which the next PRESENCE is due (R103). -/
def State.presenceTick (s : State) : Tick := tickPlus s.lastSent s.params.p.toNat

/-- Offers a PRESENCE when its conditions hold (R103). -/
def State.offerPresence (s : State) : State :=
  { s with
    tx := if s.transmits && reached s.tick s.presenceTick then s.tx.offer (.presence s.fingerprint)
          else s.tx }

/-! ### Recording (R98, R99, R100) -/

/-- The MISMATCHED mark after a frame that carries the given fingerprint, or none (R99). -/
def State.markAfter (carried : Option Half) (old : Bool) (s : State) : Bool :=
  match carried with
  | none   => old
  | some f => if s.configured then f != s.fingerprint else old

/-- A peer's entry after a frame from it (R98, R100). -/
def RosterEntry.recorded (h : Header) (tick : Tick) (mark : Bool) (e : RosterEntry) : RosterEntry :=
  { e with
    presence   := if e.presence = .absent then .present else e.presence
    inStep     := h.inStep
    armed      := h.armed
    heard      := tick
    mismatched := mark }

/-- The Step Monitor records an accepted frame in its sender's entry, the own entry apart (R97, R98). -/
def State.record (h : Header) (carried : Option Half) (s : State) : State :=
  { s with
    roster :=
      if h.sender = s.addr then s.roster
      else s.roster.modify h.sender
        (fun e => e.recorded h s.tick (s.markAfter carried e.mismatched)) }

/-! ### Leaving step, joining, MUTE (R60, R93, R94, R141) -/

/-- The entry into OUT_OF_STEP: ordered entries withdrawn, dues discarded, the responder abandoned, the
streak emptied, the requester opened (R93, steps 2 to 6; R94). -/
def State.enterOutOfStep (s : State) : State :=
  let s1 := { s with stepState := .outOfStep }.withdraw (fun b => b.kind.ordered)
  State.openRequester { s1.dropDues.abandonResponder with streak := 0 }

/-- A vote takes the station out of step (R93). -/
def State.leaveStep (s : State) : State := (s.setFlag .leftStep).enterOutOfStep

/-- The listening period ends on an in-step frame: the station joins (R94, R141). -/
def State.join (s : State) : State :=
  State.enterOutOfStep { s with listeningEnd := none, lastSent := s.tick }

/-- Entry into MUTE at the third consecutive discard (R60). -/
def State.enterMute (s : State) : State :=
  let s1 := ((s.setFlag .muted).withdraw (fun _ => true)).dropDues
  { s1 with
    stepState    := .mute
    listeningEnd := none
    tx           := { s1.tx with discards := 0 }
    responder    := Responder.idle
    requester    := Requester.idle }

/-! ### The vote (R88 to R92, R96) -/

/-- The conditions of a vote (R88). -/
def State.votes (h : Header) (s : State) : Bool :=
  s.applies && h.inStep && !(s.roster.entry h.sender).mismatched

/-- The frame's carried values equal this station's (R89). -/
def State.agrees (h : Header) (s : State) : Bool :=
  h.count == s.table.count && h.digest == s.table.digest

/-- On AGREE: the peers of a streak below the threshold become SUSPECT, the streak is emptied, and a
SUSPECT sender becomes PRESENT (R90). The own entry is fixed (R97). -/
def State.voteAgree (sender : Addr) (s : State) : State :=
  { s with
    roster := s.roster.update (fun a e =>
      if a = s.addr then e
      else
        let e1 := if hasAddr s.streak a && addrCount s.streak < s.params.v.toNat
                  then { e with presence := .suspect } else e
        if a = sender ∧ e1.presence = .suspect then { e1 with presence := .present } else e1)
    streak := 0 }

/-- The counts of a disagreement and the sender's entry into the streak (R91, steps 1 to 3). -/
def State.countDisagreement (sender : Addr) (s : State) : State :=
  { s.rise .disagreements 1 with
    roster := if sender = s.addr then s.roster
              else s.roster.modify sender
                (fun e => { e with disagreements := satAdd8 e.disagreements 1 })
    streak := addAddr s.streak sender }

/-- On DISAGREE: counted, and at the threshold an IN_STEP station leaves step and a MUTE station sets
DIVERGED (R91, R93, R96). -/
def State.voteDisagree (sender : Addr) (s : State) : State :=
  let s1 := s.countDisagreement sender
  if s1.params.v.toNat ≤ addrCount s1.streak then
    if s1.stepState = .inStep then s1.leaveStep
    else { s1.setFlag .diverged with streak := 0 }
  else s1

/-- The vote on an accepted frame, where one is called for (R88, R89). -/
def State.vote (h : Header) (s : State) : State :=
  if s.votes h then
    if s.agrees h then s.voteAgree h.sender else s.voteDisagree h.sender
  else s

/-! ### Acceptance of a frame (R63, R66) -/

/-- The Bus Receiver can accept a frame: it is RECEIVING, and no frame of the station's own is on the
line (R2, R63). -/
def State.receives (s : State) : Bool :=
  !s.inReset && s.rx == .receiving && s.tx.onLine.isNone

/-- The Receiver leaves a frame it has accepted or discarded (R63). -/
def State.receiverDone (s : State) : State :=
  { s.lineBusy with rx := .waitIdle }

/-- Steps 1 and 2 of an acceptance, and the record of step 3: the address check, an EPOCH's arrival
effects, the sender's roster entry (R66). -/
def State.arrive (h : Header) (carried : Option Half) (epoch : Bool) (s : State) : State :=
  let s1 := s.receiverDone.setFlagIf (h.sender == s.addr) .addressClash
  State.record h carried (if epoch then s1.epochArrival else s1)

/-- The rest of step 3: the end of the listening period, or the vote (R66, R88, R141). -/
def State.monitor (h : Header) (s : State) : State :=
  if s.stepState = .listening then (if h.inStep then s.join else s) else s.vote h

/-- Steps 1 to 3 of an acceptance (R66). -/
def State.accept (h : Header) (carried : Option Half) (epoch : Bool) (s : State) : State :=
  (s.arrive h carried epoch).monitor h

/-- Step 4 for a CLAIM, CLOSE or EPOCH: applied in IN_STEP and MUTE, held or dropped in OUT_OF_STEP, else
ignored (R1, R66). -/
def State.ownSequenced (h : Header) (body : Sequenced) (s : State) : State :=
  match s.stepState with
  | .inStep | .mute => s.applyFrame h.sender body
  | .outOfStep      => s.holdFrame h.sender body h.count
  | .unconfigured | .listening | .conflict => s

/-- Step 4 for a CLEAR (R1, R41, R42). -/
def State.ownClear (tick : Tick) (epoch : Byte) (s : State) : State :=
  match s.stepState with
  | .inStep | .mute => s.applyClear
  | .outOfStep      => s.clearOutOfStep tick epoch
  | .unconfigured | .listening | .conflict => s

/-- Step 4 for a STATE (R112, R127). -/
def State.ownState (h : Header) (body : List Byte) (s : State) : State :=
  match readStateBody body with
  | none   => s
  | some b =>
    match s.stepState with
    | .outOfStep => s.requesterState h.sender body.length b
    | .inStep    => s.responderState b
    | .unconfigured | .listening | .conflict | .mute => s

/-- Step 4 for a STATE_REQ (R126). -/
def State.ownStateReq (h : Header) (s : State) : State :=
  if s.stepState = .inStep then s.requestHeard h.sender else s

/-! ### Completion of an own frame (R61) -/

/-- What every completion does: the entry leaves, the consecutive-discard count is 0, the station
yields, both recessive counts begin afresh, the Receiver waits for idle and the last sent tick is the
current one (R52, R57, R61, R63, R103). -/
def State.completed (s : State) : State :=
  { s with
    tx          := { s.tx.dropSending with discards := 0, yielding := true, recessive := 0 }
    rx          := .waitIdle
    rxRecessive := 0
    lastSent    := s.tick }

/-- The kind of the entry in transmission. -/
def State.sendingKind (s : State) : Option Kind := s.tx.sendingEntry.map (fun e => e.body.kind)

/-- A frame of this station's own, of the kind, is on the line. -/
def State.sends (k : Kind) (s : State) : Bool :=
  !s.inReset && s.tx.onLine.isSome && s.sendingKind == some k

/-- The station's own CLAIM, CLOSE or EPOCH is applied where R1 applies frames (R2). -/
def State.applyOwn (body : Sequenced) (s : State) : State :=
  if s.applies then s.applyFrame s.addr body else s

/-! ### Founding (R143) -/

/-- The station founds (R143). -/
def State.found (s : State) : State :=
  let s1 := State.computeDues
    { s with stepState := .inStep, listeningEnd := none, lastSent := s.tick,
             table := Table.founding s.fingerprint }
  if s1.tx.holds .epoch then s1 else s1.admitEntry .epoch

/-! ### Absence (R101) -/

/-- The entry is due for absence (R101). -/
def State.absent (s : State) (a : Addr) : Bool :=
  s.configured && a != s.addr && (s.roster.entry a).presence != .absent
    && reached s.tick (tickPlus (s.roster.entry a).heard (4 * s.params.p.toNat))

/-- Every entry due for absence becomes ABSENT, its count 0, its address out of the streak (R101). -/
def State.markAbsent (s : State) : State :=
  { s with
    roster := s.roster.update (fun a e =>
      if s.absent a then { e with presence := .absent, disagreements := 0 } else e)
    streak := dropAddrs s.absent s.streak }

end Sys2Proof.Machine
end

