-- ==== Sys2Proof/Machine/Reset.lean ====
section
/-! DEFINITION. PIN_RESET and RESET_RELEASE (R135, R136). -/

namespace Sys2Proof.Machine

/-- A command that arrives while RESETn is low has no effect (R135). -/
def State.unlessReset (f : State → State) (s : State) : State := if s.inReset then s else f s

/-- The station goes into pin reset: every block at its reset values, an open transaction and a frame
on the line lost without a commit or a break. The level of CSn and the commands that wait are not the
station's to reset (R135). -/
def State.pinReset (s : State) : State :=
  { State.reset with csnHigh := s.csnHigh, pending := s.pending }

/-- PIN_RESET (R135). -/
def execPinReset (s : State) : Host.Outcome State Fault Refusal := .next s.pinReset

/-- The station leaves reset: the straps are sampled, and the board port waits for a high CSn unless it
sees one now (R135, R136, R158). -/
def State.release (addr : Addr) (rate : BitVec 2) (s : State) : State :=
  { s with
    inReset := false
    addr    := addr
    rate    := rate
    port    := { s.port with txn := if s.csnHigh then .idle else .waitHigh } }

/-- RESET_RELEASE (R136). Outside reset RESETn cannot rise, and nothing happens. -/
def execResetRelease (addr : Addr) (rate : BitVec 2) (s : State) : Host.Outcome State Fault Refusal :=
  .next (if s.inReset then s.release addr rate else s)

end Sys2Proof.Machine
end

