-- ==== Sys2Proof/Machine/Bus.lean ====
section
/-! DEFINITION. The Bus Transmitter and the line: TRANSMISSION_START, ARBITRATION_LOSS, BIT_ERROR,
DEFERRED_OFFER_ADMITTED, the seven completions, FRAME_DISCARDED, LINE_IDLE, START_BIT_TAKEN and BREAK_END
(chapter 3; R85, R104, R108, R129). -/

namespace Sys2Proof.Machine

/-! ### Starting (R54, R55) -/

/-- One bit time in nanoseconds at the strapped rate (R49). -/
def bitTimeNs (rate : BitVec 2) : Nat := 1000 / 2 ^ rate.toNat

/-- The station drives PBD dominant: a break, or a frame in transmission with its dominant bits (R49). -/
def State.drivesLine (s : State) : Bool := s.tx.breaking || s.tx.onLine.isSome

/-- The body bytes of an entry at its start bit: a CLEAR takes the tick and epoch of that moment, a
STATE header its tick (R54, R176). -/
def State.bodyBytes (s : State) : Body → List Byte
  | .epoch              => []
  | .clear              => be24 s.tick ++ [s.table.epoch]
  | .close number       => be16 number
  | .claim stamp epoch  => be24 stamp ++ [epoch]
  | .state c            => c.bytes s.tick
  | .stateReq fp n      => be16 fp ++ [n]
  | .presence fp        => be16 fp

/-- The frame of an entry as it is filled at the start bit (R54). -/
def State.frameOf (s : State) (b : Body) : Frame :=
  { kind   := b.kind
    header := { sender := s.addr, inStep := s.stepState == .inStep, armed := s.armed,
                count := s.table.count, digest := s.table.digest }
    body   := s.bodyBytes b }

/-- The recessive bit times the Transmitter waits for: 12, or 24 while it yields (R52, R57). -/
def Transmitter.idleNeeded (t : Transmitter) : Nat := if t.yielding then Config.yieldBits else Config.idleBits

/-- The kind may be sent in this step state: an ordered frame only in IN_STEP (R55). -/
def State.maySend (s : State) (k : Kind) : Bool :=
  if k.ordered then s.stepState == .inStep else s.transmits

/-- The Transmitter's own count says that the line is idle and any yield over (R52, R57). -/
def Transmitter.idle (t : Transmitter) : Bool := t.idleNeeded ≤ t.recessive

/-- The conditions of R55 apart from the head: the line idle and any yield over, no frame being
received, no transmission or break of the station's own. -/
def State.mayStart (s : State) : Bool :=
  !s.inReset && s.rx != .receiving && s.tx.onLine.isNone && !s.tx.breaking && s.tx.idle

/-- The head starts: its frame is filled and on the line, any yield is over (R54, R55, R57). The line is
idle, so a Receiver that waited for that is READY (R63). -/
def State.startHead (e : Entry) (rest : List Entry) (s : State) : State :=
  { s with
    tx := { s.tx with
      outbox    := { e with sending := true } :: rest
      onLine    := some (s.frameOf e.body)
      yielding  := false
      recessive := 0 }
    rx          := .ready
    rxRecessive := 0 }

/-- The Transmitter starts its head when it may, the line having been recessive for `recessive` bit times
(R55). Where it may not, no start occurs and nothing is shown of the line (log 4). -/
def State.start (recessive : Nat) (s : State) : State :=
  match s.tx.outbox with
  | [] => s
  | e :: rest =>
    if (s.lineRecessive recessive).mayStart && s.maySend e.body.kind then s.startHead e rest else s

/-- TRANSMISSION_START (R55). -/
def execTransmissionStart (recessive : Nat) (s : State) : Host.Outcome State Fault Refusal :=
  .next (s.start recessive)

/-! ### Losing and failing (R56, R58, R59, R60) -/

/-- A frame of this station's own is on the line. -/
def State.onLine (s : State) : Bool := !s.inReset && s.tx.onLine.isSome

/-- What the offering blocks do when an entry of the kind has left without completing (R32, R103). -/
def State.recheck (k : Kind) (s : State) : State :=
  match k with
  | .close    => s.scheduleCloses
  | .presence => s.offerPresence
  | .epoch | .clear | .claim | .state | .stateReq => s

/-- What the block that offered a discarded entry does (R59; R32, R103, R109, R130). -/
def State.afterDiscard (k : Kind) (s : State) : State :=
  match k with
  | .close    => s.scheduleCloses
  | .presence => s.offerPresence
  | .state    => s.chunkDiscarded
  | .stateReq => if s.requester.phase = .requesting none then s.offerRequest else s
  | .epoch | .clear | .claim => s

/-- The attempt of entry `e` ends without a discard: the entry is back, `f` applied, or removed when it
carries a mark, and then its block looks again (R56, R58, R72). -/
def State.returnEntry (e : Entry) (f : Entry → Entry) (s : State) : State :=
  let s1 := { s.rise .claimsWithdrawn s.tx.returnedClaims with tx := s.tx.returnSending f }
  if e.mark then s1.recheck e.body.kind else s1

/-- The station loses arbitration (R56): the Receiver goes on with the winning frame (R63). -/
def State.loseArbitration (e : Entry) (s : State) : State :=
  State.returnEntry e id ({ s with rx := .receiving }.lineBusy.rise .arbLosses 1)

/-- ARBITRATION_LOSS (R56). -/
def execArbitrationLoss (s : State) : Host.Outcome State Fault Refusal :=
  .next (if s.onLine then
           (match s.tx.sendingEntry with
            | some e => s.loseArbitration e
            | none   => s)
         else s)

/-- The station drives a break and its Receiver waits for idle (R51, R58, R63). -/
def State.driveBreak (s : State) : State :=
  { s.lineBusy with tx := { s.lineBusy.tx with breaking := true }, rx := .waitIdle }

/-- The discard of the entry in transmission: counted, reported to its block, or, at the third in a row,
the entry into MUTE (R59, R60). -/
def State.discard (e : Entry) (s : State) : State :=
  let s1 := { s.rise .txDiscards 1 with
    tx := { s.tx.dropSending with discards := s.tx.discards + 1 } }
  if Config.maxDiscards ≤ s1.tx.discards then s1.enterMute else s1.afterDiscard e.body.kind

/-- A bit error in the frame of entry `e` (R58). -/
def State.bitError (e : Entry) (s : State) : State :=
  let s1 := s.driveBreak.rise .txAborts 1
  if Config.maxAttempts ≤ e.attempts + 1 then s1.discard e
  else s1.returnEntry e (fun x => { x with attempts := x.attempts + 1 })

/-- BIT_ERROR (R58). -/
def execBitError (s : State) : Host.Outcome State Fault Refusal :=
  .next (if s.onLine then
           (match s.tx.sendingEntry with
            | some e => s.bitError e
            | none   => s)
         else s)

/-- DEFERRED_OFFER_ADMITTED (R71). -/
def execDeferredOfferAdmitted (s : State) : Host.Outcome State Fault Refusal :=
  .next (s.unlessReset fun s => { s with tx := s.tx.admitDeferred })

/-! ### Completions (R61) -/

/-- The body of the entry in transmission. -/
def State.sendingBody (s : State) : Option Body := s.tx.sendingEntry.map Entry.body

/-- The own frame as the Engine applies it, where it is a CLAIM, CLOSE or EPOCH. -/
def Body.sequenced : Body → Option Sequenced
  | .claim stamp era => some (.claim stamp era)
  | .close number    => some (.close number)
  | .epoch           => some .epoch
  | .clear | .state _ | .stateReq _ _ | .presence _ => none

/-- The completion of the station's own CLAIM, CLOSE or EPOCH, `f` being what comes before its
application (R2, R61). -/
def State.completeSequenced (k : Kind) (f : State → State) (s : State) : State :=
  if s.sends k then
    match s.sendingBody.bind Body.sequenced with
    | some body => (f s.completed).applyOwn body
    | none      => s
  else s

/-- OWN_CLAIM_COMPLETES (R61, R85). -/
def execOwnClaimCompletes (s : State) : Host.Outcome State Fault Refusal :=
  .next (s.completeSequenced .claim (State.rise .claimsSent 1))

/-- OWN_CLOSE_COMPLETES (R61). -/
def execOwnCloseCompletes (s : State) : Host.Outcome State Fault Refusal :=
  .next (s.completeSequenced .close id)

/-- OWN_EPOCH_COMPLETES (R44, R61): the arrival effects, then the application. -/
def execOwnEpochCompletes (s : State) : Host.Outcome State Fault Refusal :=
  .next (s.completeSequenced .epoch State.epochArrival)

/-- OWN_CLEAR_COMPLETES (R43): applied as any CLEAR, where R1 applies one. -/
def execOwnClearCompletes (s : State) : Host.Outcome State Fault Refusal :=
  .next (if s.sends .clear then
           (if s.applies then s.completed.applyClear else s.completed)
         else s)

/-- OWN_STATE_COMPLETES (R129). -/
def execOwnStateCompletes (s : State) : Host.Outcome State Fault Refusal :=
  .next (if s.sends .state then s.completed.chunkSent else s)

/-- The station's own STATE_REQ has completed in REQUESTING: the request is sent, the hold queue is
emptied and collects from now on, and the deadline is set (R108). -/
def State.requestSent (s : State) : State :=
  match s.requester.phase with
  | .requesting _ =>
    { s with requester := { s.requester with
        phase := .requesting (some (tickPlus s.tick Config.requestSpan)), hold := [] } }
  | _ => s

/-- OWN_STATE_REQ_COMPLETES (R108). -/
def execOwnStateReqCompletes (s : State) : Host.Outcome State Fault Refusal :=
  .next (if s.sends .stateReq then s.completed.requestSent else s)

/-- OWN_PRESENCE_COMPLETES (R104). -/
def execOwnPresenceCompletes (s : State) : Host.Outcome State Fault Refusal :=
  .next (if s.sends .presence then s.completed else s)

/-! ### The line (R51, R52, R63, R65) -/

/-- The Receiver discards the frame it is receiving (R63, R65). -/
def State.discardFrame (s : State) : State := s.receiverDone.rise .rxBad 1

/-- FRAME_DISCARDED (R64, R65): counted once, whichever fault came first. -/
def execFrameDiscarded (_fault : FrameFault) (s : State) : Host.Outcome State Fault Refusal :=
  .next (if s.receives then s.discardFrame else s)

/-- The Receiver leaves WAIT_IDLE for READY once its own count says that the line is idle (R52, R63). -/
def State.receiverIdle (s : State) : State :=
  { s with rx := if s.rx = .waitIdle ∧ Config.idleBits ≤ s.rxRecessive then .ready else s.rx }

/-- LINE_IDLE (R52, R63): PBD has been recessive for 12 bit times. A line this station itself drives is not
idle. -/
def execLineIdle (s : State) : Host.Outcome State Fault Refusal :=
  .next (if !s.inReset && s.rx == .waitIdle && !s.drivesLine then
           (s.lineRecessive Config.idleBits).receiverIdle
         else s)

/-- START_BIT_TAKEN (R57, R63): the Receiver is RECEIVING, and a yield ends. -/
def execStartBitTaken (s : State) : Host.Outcome State Fault Refusal :=
  .next (if !s.inReset && s.rx == .ready && !s.drivesLine then
           { s.lineBusy with rx := .receiving, tx := { s.lineBusy.tx with yielding := false } }
         else s)

/-- BREAK_END (R51): PBD is released. -/
def execBreakEnd (s : State) : Host.Outcome State Fault Refusal :=
  .next (if !s.inReset && s.tx.breaking then
           { s.lineBusy with tx := { s.lineBusy.tx with breaking := false } }
         else s)

end Sys2Proof.Machine
end

