-- ==== Sys2Proof/Machine/Accept.lean ====
section
/-! DEFINITION. The seven acceptances: a peer's frame that has passed every check of the Bus Receiver is
handed on in the order of R66. -/

namespace Sys2Proof.Machine

/-- CLAIM_ACCEPTED (R66). -/
def execClaimAccepted (h : Header) (stamp : Tick) (epoch : Byte) (s : State) :
    Host.Outcome State Fault Refusal :=
  .next (if s.receives then (s.accept h none false).ownSequenced h (.claim stamp epoch) else s)

/-- CLOSE_ACCEPTED (R66). -/
def execCloseAccepted (h : Header) (number : Half) (s : State) : Host.Outcome State Fault Refusal :=
  .next (if s.receives then (s.accept h none false).ownSequenced h (.close number) else s)

/-- CLEAR_ACCEPTED (R41, R42, R66). -/
def execClearAccepted (h : Header) (tick : Tick) (epoch : Byte) (s : State) :
    Host.Outcome State Fault Refusal :=
  .next (if s.receives then (s.accept h none false).ownClear tick epoch else s)

/-- EPOCH_ACCEPTED (R44, R66). -/
def execEpochAccepted (h : Header) (s : State) : Host.Outcome State Fault Refusal :=
  .next (if s.receives then (s.accept h none true).ownSequenced h .epoch else s)

/-- STATE_ACCEPTED (R66, R112, R127). A body whose length suits no STATE frame is discarded by the
Receiver's header check instead (R64). -/
def execStateAccepted (h : Header) (body : List Byte) (s : State) : Host.Outcome State Fault Refusal :=
  .next (if s.receives then
           (if Kind.lengthOk .state body.length then (s.accept h none false).ownState h body
            else s.discardFrame)
         else s)

/-- STATE_REQ_ACCEPTED (R66, R126). The attempt number is taken as carried and decides nothing (R107,
R176). -/
def execStateReqAccepted (h : Header) (fingerprint : Half) (_attempt : Byte) (s : State) :
    Host.Outcome State Fault Refusal :=
  .next (if s.receives then (s.accept h (some fingerprint) false).ownStateReq h else s)

/-- PRESENCE_ACCEPTED (R66, R104). -/
def execPresenceAccepted (h : Header) (fingerprint : Half) (s : State) :
    Host.Outcome State Fault Refusal :=
  .next (if s.receives then s.accept h (some fingerprint) false else s)

end Sys2Proof.Machine
end

