-- ==== Sys2Proof/Machine/Board.lean ====
section
/-! DEFINITION. The board port: transactions, responses, the status byte and every board command
(chapter 9; R137, R138, R146, R147, R154, R155). -/

namespace Sys2Proof.Machine

/-! ### Transactions (R158, R160) -/

/-- The number of argument bytes that go with a command code; a code that names no command carries none
(R159, R178). -/
def argumentBytes (code : Byte) : Nat :=
  if code = 0x11#8 then 7
  else if code = 0x42#8 ∨ code = 0x43#8 ∨ code = 0x52#8 ∨ code = 0x61#8 then 2
  else 0

/-- The bytes are a command code with argument bytes still to come (R158). -/
def partialCommand : List Byte → Bool
  | [] => false
  | code :: args => args.length < argumentBytes code

/-- Bytes are shifted in from COMMAND on: once a command byte is in that carries argument bytes, the state
is ARGUMENTS until the last of them is in (R158). Bytes that make up a whole command are the row of that
command and are not shifted in here (log 4). -/
def State.shiftIn (bytes : List Byte) (s : State) : State :=
  if partialCommand bytes then { s with port := { s.port with txn := .arguments, shifted := bytes } } else s

/-- The command can be taken: bytes are being shifted in, and those that are in are the first of its own
(R158). -/
def State.takesCommand (c : Instr) (s : State) : Bool :=
  !s.inReset && (s.port.txn == .command || s.port.txn == .arguments)
    && (match Decode.commandBytes c with
        | some bytes => s.port.shifted.isPrefixOf bytes
        | none       => false)

/-- The last byte of the command is in: its effect is made where it can be taken; otherwise no command is
taken and nothing happens (R158; log 4). -/
def State.taken (c : Instr) (f : State → State) (s : State) : State := if s.takesCommand c then f s else s

/-- The status byte (R161, R178). -/
def State.statusByte (s : State) : Byte :=
  BitVec.ofBool (!s.tx.outbox.isEmpty) ++ BitVec.ofBool s.stage.isSome ++ BitVec.ofBool s.attention
    ++ BitVec.ofBool (!s.orders.isEmpty) ++ BitVec.ofBool s.armed ++ s.stepState.code

/-- The command has been taken and its effects made: the response is loaded, the status byte first
(R158, R159, R162). -/
def State.respond (r : Result) (data : List Byte) (c : Commit) (s : State) : State :=
  { s with port :=
      { txn := .response, shifted := [], response := s.statusByte :: r.code :: data, commit := c,
        carried := s.attention, fresh := false, statusOut := false } }

/-- A response without data and without a commit (R159). -/
def State.answer (r : Result) (s : State) : State := s.respond r [] .nothing

/-- The status byte's last bit has gone out: attention is cleared when the byte carried it and no flag
has been newly set since the load (R163). -/
def State.endStatusByte (s : State) : State :=
  { s with
    attention := s.attention && !(s.port.carried && !s.port.fresh)
    port      := { s.port with statusOut := true } }

/-- The end of a response comes after the end of its status byte: where STATUS_BYTE_END has not been taken
yet, its effect is made first (R159, R163; log 4). -/
def State.statusGone (s : State) : State := if s.port.statusOut then s else s.endStatusByte

/-- The last response byte has been shifted out: the transaction waits in TRAILING (R158). -/
def State.trail (s : State) : State :=
  { s.statusGone with port := { s.statusGone.port with txn := .trailing, commit := .nothing } }

/-- The response being shifted out ends in the commit `c`. -/
def State.endsIn (c : Commit) (s : State) : Bool :=
  !s.inReset && s.port.txn == .response && s.port.commit == c

/-- SDO is at high impedance: in reset and while CSn is high (R158; the pin table of 10.5). DESIGN CHOICE: a
low CSn in WAIT_HIGH is not among the cases, since no rule names it (log 16). -/
def State.sdoHighZ (s : State) : Bool := s.inReset || s.csnHigh

/-- SDO shifts out 00h: bytes are being shifted in, or the response has ended (R158). DESIGN CHOICE: in
WAIT_HIGH with CSn low, where no rule says what SDO shows, the model has it neither shifting out 00h nor at
high impedance (log 16). -/
def State.sdoZeros (s : State) : Bool :=
  !s.sdoHighZ && (s.port.txn == .command || s.port.txn == .arguments || s.port.txn == .trailing)

/-- CSn falls (R158): in IDLE a transaction opens, in COMMAND, and the first bytes of a command may be
shifted in. -/
def State.openTransaction (shifted : List Byte) (s : State) : State :=
  if !s.inReset && s.csnHigh && s.port.txn == .idle then
    State.shiftIn shifted { s with csnHigh := false, port := { Port.reset with txn := .command } }
  else { s with csnHigh := false }

/-- TRANSACTION_OPEN (R158). -/
def execTransactionOpen (s : State) (shifted : List Byte := []) : Host.Outcome State Fault Refusal :=
  .next (s.openTransaction shifted)

/-- CSn rises (R155, R158, R160): the transaction ends without a commit still pending, and a pending
mark on an order is dropped. -/
def State.endTransaction (s : State) : State :=
  if s.inReset then { s with csnHigh := true }
  else
    { s with
      csnHigh := true
      port    := { Port.reset with txn := .idle }
      orders  := s.orders.map (fun o => { o with pending := false }) }

/-- TRANSACTION_END (R160). A CSn that is high already does not rise, and nothing happens. -/
def execTransactionEnd (s : State) : Host.Outcome State Fault Refusal :=
  .next (if s.csnHigh then s else s.endTransaction)

/-- STATUS_BYTE_END (R163). -/
def execStatusByteEnd (s : State) : Host.Outcome State Fault Refusal :=
  .next (if !s.inReset && s.port.txn == .response && !s.port.statusOut then s.endStatusByte else s)

/-- RESPONSE_END (R158): the end of a response without a commit. -/
def execResponseEnd (s : State) : Host.Outcome State Fault Refusal :=
  .next (if s.endsIn .nothing then s.trail else s)

/-! ### SET_CONFIG (R137, R138) -/

/-- Every parameter lies in its range (R137). -/
def Params.inRange (p : Params) : Bool :=
  1 ≤ p.w.toNat && p.w.toNat ≤ 127 && 1 ≤ p.g.toNat && p.g.toNat ≤ 63
    && 1 ≤ p.q.toNat && p.q.toNat ≤ 16 && 16 ≤ p.p.toNat && p.p.toNat ≤ 4095
    && 1 ≤ p.v.toNat && p.v.toNat ≤ 3

/-- The end of a listening period that starts now (R138, R147). -/
def State.listeningTick (s : State) : Tick :=
  tickPlus s.tick (4 * s.params.p.toNat + Config.listeningExtra)

/-- SET_CONFIG is accepted (R138; R8, R86, R105): the parameters and the fingerprint are stored, the
digest is the fingerprint, and the station listens. -/
def State.configure (p : Params) (s : State) : State :=
  let s1 := { s with params := p }
  { s1 with
    fingerprint  := fingerprintOf p
    table        := { s.table with digest := fingerprintOf p }
    stepState    := .listening
    listeningEnd := some s1.listeningTick
    armed        := false
    lastClaimed  := none
    streak       := 0 }

/-- SET_CONFIG (R137). -/
def execSetConfig (w g q h : Byte) (p : Half) (v : Byte) (s : State) : Host.Outcome State Fault Refusal :=
  .next (s.taken (.setConfig w g q h p v) fun s =>
    if s.configured then s.answer .alreadyConfigured
    else if Params.inRange ⟨w, g, q, h, p, v⟩ then (s.configure ⟨w, g, q, h, p, v⟩).answer .ok
    else s.answer .badConfig)

/-! ### ARM and DISARM (R77, R164) -/

/-- The arm state set by a command, and its answer (R164). -/
def State.setArmed (a : Bool) (s : State) : State :=
  if s.configured then
    if s.armed = a then s.answer .already else { s with armed := a }.answer .ok
  else s.answer .notConfigured

/-- ARM (R164). -/
def execArm (s : State) : Host.Outcome State Fault Refusal :=
  .next (s.taken .arm (State.setArmed true))

/-- DISARM (R164). -/
def execDisarm (s : State) : Host.Outcome State Fault Refusal :=
  .next (s.taken .disarm (State.setArmed false))

/-! ### TAKE_ORDER (R154, R155) -/

/-- TAKE_ORDER is taken: the head is copied into the response and takes the pending mark, or NO_ORDER is
answered with eight bytes of 00h (R154). -/
def State.takeOrder (s : State) : State :=
  match s.orders with
  | [] => s.respond .noOrder (List.replicate 8 0) .nothing
  | o :: rest =>
    State.respond .ok o.order.bytes .takeOrder { s with orders := { o with pending := true } :: rest }

/-- TAKE_ORDER (R154). -/
def execTakeOrder (s : State) : Host.Outcome State Fault Refusal :=
  .next (s.taken .takeOrder State.takeOrder)

/-- The queue after the commit of a TAKE_ORDER: without its head when that carries the mark (R155). -/
def commitOrders : List QueuedOrder → List QueuedOrder
  | [] => []
  | o :: rest => if o.pending then rest else o :: rest

/-- TAKE_ORDER_COMMIT (R155). -/
def execTakeOrderCommit (s : State) : Host.Outcome State Fault Refusal :=
  .next (if s.endsIn .takeOrder then State.trail { s with orders := commitOrders s.orders } else s)

/-! ### Listing and staging (R165 to R167) -/

/-- The records of the table, open ones first (R165). -/
def Table.records (t : Table) : List EventRecord := t.slots ++ t.history

/-- The data of LIST_EVENTS: the record count, then an entry for each record (R165). -/
def Table.listing (t : Table) : List Byte :=
  BitVec.ofNat 8 t.records.length :: t.records.flatMap EventRecord.listEntry

/-- LIST_EVENTS (R165). -/
def execListEvents (s : State) : Host.Outcome State Fault Refusal :=
  .next (s.taken .listEvents fun s => s.respond .ok s.table.listing .nothing)

/-- STAGE_EVENT is taken (R166). DESIGN CHOICE: the status byte of the same response shows stage valid, by R159
and R162; step 5 of the example of 9.7 has it show in the next response's (log 17). -/
def State.stageEvent (number : Half) (s : State) : State :=
  match s.table.records.find? (fun r => r.number == number) with
  | none   => s.answer .notFound
  | some r =>
    State.respond .ok [BitVec.ofNat 8 r.staged.length] .nothing { s with stage := some r.staged }

/-- STAGE_EVENT (R166). -/
def execStageEvent (number : Half) (s : State) : Host.Outcome State Fault Refusal :=
  .next (s.taken (.stageEvent number) (State.stageEvent number))

/-- READ_STAGE is taken (R167). -/
def State.readStage (offset length : Byte) (s : State) : State :=
  match s.stage with
  | none => s.answer .noStage
  | some bytes =>
    if length.toNat = 0 ∨ 48 < length.toNat ∨ bytes.length < offset.toNat + length.toNat then
      s.answer .badRange
    else s.respond .ok ((bytes.drop offset.toNat).take length.toNat) .nothing

/-- READ_STAGE (R167). -/
def execReadStage (offset length : Byte) (s : State) : Host.Outcome State Fault Refusal :=
  .next (s.taken (.readStage offset length) (State.readStage offset length))

/-! ### Status, counters and roster (R168 to R170) -/

/-- The eighteen bytes of the extended status (R168, R178). None of them is the step state, which R87 has the
board see there: the status byte that opens the same response shows it (DESIGN CHOICE, log 15). -/
def State.extendedStatus (s : State) : List Byte :=
  [s.requester.phase.code, s.requester.attempt, BitVec.ofNat 8 s.requester.hold.length,
   BitVec.ofNat 8 s.tx.outbox.length, BitVec.ofNat 8 s.orders.length,
   BitVec.ofNat 8 s.table.slots.length, BitVec.ofNat 8 s.table.history.length, s.table.epoch]
    ++ be24 s.tick ++ be16 s.table.count ++ be16 s.table.digest
    ++ [s.table.overflow, s.table.stale, s.table.void]

/-- READ_STATUS (R168). -/
def execReadStatus (s : State) : Host.Outcome State Fault Refusal :=
  .next (s.taken .readStatus fun s => s.respond .ok s.extendedStatus .nothing)

/-- The pair of arguments READ_COUNTERS answers (R169). -/
def counterRangeOk (first n : Byte) : Bool :=
  first.toNat ≤ 15 && 1 ≤ n.toNat && n.toNat ≤ 16 && first.toNat + n.toNat ≤ 16

/-- READ_COUNTERS is taken (R169). -/
def State.readCounters (first n : Byte) (s : State) : State :=
  if counterRangeOk first n then
    s.respond .ok (((s.counters.toList.drop first.toNat).take n.toNat).flatMap be16) .nothing
  else s.answer .badRange

/-- READ_COUNTERS (R169). -/
def execReadCounters (first n : Byte) (s : State) : Host.Outcome State Fault Refusal :=
  .next (s.taken (.readCounters first n) (State.readCounters first n))

/-- The entry an address reads as; the own entry is read from the station itself (R97, R170). -/
def State.rosterView (s : State) (a : Addr) : RosterEntry :=
  if a = s.addr then
    { presence := .present, inStep := s.stepState == .inStep, armed := s.armed, heard := s.tick,
      disagreements := 0, mismatched := false }
  else s.roster.entry a

/-- READ_ROSTER (R170). -/
def execReadRoster (s : State) : Host.Outcome State Fault Refusal :=
  .next (s.taken .readRoster fun s => s.respond .ok (allAddrs.flatMap (fun a => (s.rosterView a).bytes)) .nothing)

/-! ### ACK_FLAGS (R173) -/

/-- The flag set in its two-byte layout (R173, R178). -/
def State.flagCopy (s : State) : Half := s.flags.setWidth 16

/-- ACK_FLAGS (R173): the copy is taken, the clearing left to the end of the response. -/
def execAckFlags (mask : Half) (s : State) : Host.Outcome State Fault Refusal :=
  .next (s.taken (.ackFlags mask) fun s => s.respond .ok (be16 s.flagCopy) (.ackFlags mask s.flagCopy))

/-- Clears each flag that the mask names and the copy showed set (R173). -/
def State.clearFlags (mask copy : Half) (s : State) : State :=
  { s with flags := s.flags &&& ~~~((mask &&& copy).setWidth 9) }

/-- The commit of ACK_FLAGS (R173). -/
def State.commitFlags (s : State) : State :=
  match s.port.commit with
  | .ackFlags mask copy => (s.clearFlags mask copy).trail
  | .nothing | .takeOrder | .restart => s

/-- ACK_FLAGS_COMMIT (R173). -/
def execAckFlagsCommit (s : State) : Host.Outcome State Fault Refusal :=
  .next (if !s.inReset && s.port.txn == .response then s.commitFlags else s)

/-! ### Requests to the array (R171) -/

/-- A CLEAR or EPOCH asked for by the board (R171). -/
def State.askFrame (b : Body) (s : State) : State :=
  if s.stepState ≠ .inStep then s.answer .notInStep
  else if s.tx.holds b.kind then s.answer .already
  else (s.admitEntry b).answer .ok

/-- ASK_CLEAR (R171). -/
def execAskClear (s : State) : Host.Outcome State Fault Refusal :=
  .next (s.taken .askClear (State.askFrame .clear))

/-- ASK_EPOCH (R171). -/
def execAskEpoch (s : State) : Host.Outcome State Fault Refusal :=
  .next (s.taken .askEpoch (State.askFrame .epoch))

/-! ### RESTART_STATION (R146, R147) -/

/-- RESTART_STATION is taken (R146). -/
def State.askRestart (s : State) : State :=
  match s.stepState with
  | .unconfigured => s.answer .notConfigured
  | .conflict     => s.answer .notAllowed
  | .listening | .inStep | .outOfStep | .mute => s.respond .ok [] .restart

/-- RESTART_STATION (R146). -/
def execRestartStation (s : State) : Host.Outcome State Fault Refusal :=
  .next (s.taken .restartStation State.askRestart)

/-- The transmitter after a restart: emptied, a transmission in progress cut with a break; a break
already running goes on, and the recessive count is kept but for the break's own bits (R62). -/
def Transmitter.restarted (t : Transmitter) : Transmitter :=
  { Transmitter.reset with
    breaking  := t.breaking || t.onLine.isSome
    recessive := if t.onLine.isSome then 0 else t.recessive }

/-- The restart (R147). The configuration, the fingerprint, the straps, the tick counter and the last
sent tick are kept, and so is the port's transaction. -/
def State.restart (s : State) : State :=
  { s with
    armed        := false
    lastClaimed  := none
    tx           := s.tx.restarted
    rx           := if s.tx.onLine.isSome then .waitIdle else s.rx
    rxRecessive  := if s.tx.onLine.isSome then 0 else s.rxRecessive
    table        := Table.founding s.fingerprint
    stepState    := .listening
    listeningEnd := some s.listeningTick
    streak       := 0
    roster       := Roster.blank
    requester    := Requester.idle
    responder    := Responder.idle
    orders       := []
    stage        := none
    flags        := 0
    attention    := false
    counters     := Counters.zero }

/-- RESTART_STATION_COMMIT (R146, R147): not made when the station has entered CONFLICT since. -/
def execRestartStationCommit (s : State) : Host.Outcome State Fault Refusal :=
  .next (if s.endsIn .restart then
           (if s.stepState = .conflict then s.trail else s.restart.trail)
         else s)

/-! ### Unknown codes (R159) -/

/-- UNKNOWN_COMMAND (R159): answered UNKNOWN without effect. A code that names a command is not this
command, and nothing happens. -/
def execUnknownCommand (code : Byte) (s : State) : Host.Outcome State Fault Refusal :=
  .next (if boardCodes.contains code then s else s.taken (.unknownCommand code) (State.answer .unknown))

end Sys2Proof.Machine
end

