-- ==== Sys2Proof/Machine/Ticks.lean ====
section
/-! DEFINITION. REF_ARRIVAL, and the steps that a reached due or deadline brings: CLAIM_EXPIRY,
CLOSE_DUE_REACHED, PRESENCE_DUE, ABSENCE, REQUEST_DEADLINE, CHUNK_DEADLINE, RETRY_TICK,
ANSWER_DELAY_END and LISTENING_END (R32, R74, R83, R101, R103, R115, R140). Each block's test is one
operation, which acts only on what is reached; the row's command makes that test by itself, and
REF_ARRIVAL makes all of them at the new value (log 5). -/

namespace Sys2Proof.Machine

/-! ### The tests -/

/-- The entry is a CLAIM whose expiry tick, stamp + W + G, is reached (R83). -/
def State.expired (s : State) : Body → Bool
  | .claim stamp _ => reached s.tick (tickPlus stamp (s.params.w.toNat + s.params.g.toNat))
  | .epoch | .clear | .close _ | .state _ | .stateReq _ _ | .presence _ => false

/-- The Trigger Input tests the expiry of every CLAIM entry (R83). -/
def State.testExpiry (s : State) : State := s.withdraw s.expired

/-- The Unit tests its request deadline (R108). -/
def State.testRequest (s : State) : State :=
  match s.requester.phase with
  | .requesting (some d) => if reached s.tick d then s.fail .unanswered else s
  | _ => s

/-- The Unit tests its chunk deadline (R116). -/
def State.testChunk (s : State) : State :=
  match s.requester.phase with
  | .receiving c => if reached s.tick c.deadline then s.fail .chunkTimeout else s
  | _ => s

/-- The Unit tests its retry tick (R123). -/
def State.testRetry (s : State) : State :=
  match s.requester.phase with
  | .retryWait d => if reached s.tick d then s.nextAttempt else s
  | _ => s

/-- The Unit tests the end of its answer delay (R128). -/
def State.testDelay (s : State) : State :=
  match s.responder.phase with
  | .delay t e => if reached s.tick e then s.beginService t else s
  | _ => s

/-- The Step Monitor tests the listening end (R140). -/
def State.testListening (s : State) : State :=
  if s.stepState = .listening ∧ reachedOpt s.tick s.listeningEnd then s.found else s

/-- The new value of the counter is offered to every block, in the order of R74's table: Trigger Input,
Close Scheduler, Step Monitor, Resync Unit, joining (DESIGN CHOICE, log 5). -/
def State.offerTick (s : State) : State :=
  s.testExpiry.scheduleCloses.offerPresence.markAbsent.testRequest.testChunk.testRetry.testDelay.testListening

/-! ### The commands -/

/-- REF_ARRIVAL (R73, R74): in a counting state the counter rises by 1 and every block tests what it
holds against the new value; in reset and in UNCONFIGURED the arrival is not counted. -/
def execRefArrival (s : State) : Host.Outcome State Fault Refusal :=
  .next (s.unlessReset fun s =>
    if s.configured then State.offerTick { s with tick := s.tick + 1 } else s)

/-- CLOSE_DUE_REACHED (R32). -/
def execCloseDueReached (s : State) : Host.Outcome State Fault Refusal :=
  .next (s.unlessReset State.scheduleCloses)

/-- CLAIM_EXPIRY (R83). -/
def execClaimExpiry (s : State) : Host.Outcome State Fault Refusal :=
  .next (s.unlessReset State.testExpiry)

/-- PRESENCE_DUE (R103). -/
def execPresenceDue (s : State) : Host.Outcome State Fault Refusal :=
  .next (s.unlessReset State.offerPresence)

/-- ABSENCE (R101). -/
def execAbsence (s : State) : Host.Outcome State Fault Refusal :=
  .next (s.unlessReset State.markAbsent)

/-- REQUEST_DEADLINE (R108, R122). -/
def execRequestDeadline (s : State) : Host.Outcome State Fault Refusal :=
  .next (s.unlessReset State.testRequest)

/-- CHUNK_DEADLINE (R116, R122). -/
def execChunkDeadline (s : State) : Host.Outcome State Fault Refusal :=
  .next (s.unlessReset State.testChunk)

/-- RETRY_TICK (R123). -/
def execRetryTick (s : State) : Host.Outcome State Fault Refusal :=
  .next (s.unlessReset State.testRetry)

/-- ANSWER_DELAY_END (R128). -/
def execAnswerDelayEnd (s : State) : Host.Outcome State Fault Refusal :=
  .next (s.unlessReset State.testDelay)

/-- LISTENING_END (R140, R143). -/
def execListeningEnd (s : State) : Host.Outcome State Fault Refusal :=
  .next (s.unlessReset State.testListening)

end Sys2Proof.Machine
end

