-- ==== Sys2Proof/Machine/Trigger.lean ====
section
/-! DEFINITION. TRIG_EDGE: the Trigger Input's decision on an edge (R79 to R81). -/

namespace Sys2Proof.Machine

/-- The edge lies within the hold-off of the last claimed trigger (R80). -/
def State.inHoldOff (s : State) : Bool :=
  match s.lastClaimed with
  | none => false
  | some l => (s.tick - l).toNat ≤ s.params.h.toNat

/-- The CLAIM of a claimed edge: admitted with the current tick and epoch, the stamp then being the last
claimed trigger, or refused for want of a general place (R81). -/
def State.claimEdge (s : State) : State :=
  if generalCount s.tx.outbox < Config.maxGeneral then
    { s.admitEntry (.claim s.tick s.table.epoch) with lastClaimed := some s.tick }
  else (s.rise .claimsRefused 1).setFlag .claimRefused

/-- An edge is ignored, merged or claimed, by the first test that holds (R79). -/
def State.decideEdge (s : State) : State :=
  if s.stepState ≠ .inStep ∨ s.armed = false then s.rise .trigIgnored 1
  else if s.inHoldOff then s.rise .trigMerged 1
  else s.claimEdge

/-- TRIG_EDGE (R79): TRIG_SEEN rises in every step state, then the edge is decided. No edge is taken
while RESETn is low. -/
def execTrigEdge (s : State) : Host.Outcome State Fault Refusal :=
  .next (s.unlessReset fun s => (s.rise .trigSeen 1).decideEdge)

end Sys2Proof.Machine
end

