-- ==== Sys2Proof/Machine/Dispatch.lean ====
section
/-! DEFINITION. One arm per command, each one call of its meaning. -/

namespace Sys2Proof.Machine

/-- The command's effect on everything but the queue. -/
def exec (i : Instr) (s : State) : Host.Outcome State Fault Refusal :=
  match i with
  | .pinReset => Sys2Proof.Machine.execPinReset s
  | .resetRelease addr rate => Sys2Proof.Machine.execResetRelease addr rate s
  | .refArrival => Sys2Proof.Machine.execRefArrival s
  | .trigEdge => Sys2Proof.Machine.execTrigEdge s
  | .transactionOpen shifted => Sys2Proof.Machine.execTransactionOpen s shifted
  | .transactionEnd => Sys2Proof.Machine.execTransactionEnd s
  | .statusByteEnd => Sys2Proof.Machine.execStatusByteEnd s
  | .setConfig w g q h p v => Sys2Proof.Machine.execSetConfig w g q h p v s
  | .arm => Sys2Proof.Machine.execArm s
  | .disarm => Sys2Proof.Machine.execDisarm s
  | .takeOrder => Sys2Proof.Machine.execTakeOrder s
  | .takeOrderCommit => Sys2Proof.Machine.execTakeOrderCommit s
  | .listEvents => Sys2Proof.Machine.execListEvents s
  | .stageEvent number => Sys2Proof.Machine.execStageEvent number s
  | .readStage offset length => Sys2Proof.Machine.execReadStage offset length s
  | .readStatus => Sys2Proof.Machine.execReadStatus s
  | .readCounters first n => Sys2Proof.Machine.execReadCounters first n s
  | .readRoster => Sys2Proof.Machine.execReadRoster s
  | .ackFlags mask => Sys2Proof.Machine.execAckFlags mask s
  | .ackFlagsCommit => Sys2Proof.Machine.execAckFlagsCommit s
  | .askClear => Sys2Proof.Machine.execAskClear s
  | .askEpoch => Sys2Proof.Machine.execAskEpoch s
  | .restartStation => Sys2Proof.Machine.execRestartStation s
  | .restartStationCommit => Sys2Proof.Machine.execRestartStationCommit s
  | .unknownCommand code => Sys2Proof.Machine.execUnknownCommand code s
  | .transmissionStart recessive => Sys2Proof.Machine.execTransmissionStart recessive s
  | .arbitrationLoss => Sys2Proof.Machine.execArbitrationLoss s
  | .bitError => Sys2Proof.Machine.execBitError s
  | .deferredOfferAdmitted => Sys2Proof.Machine.execDeferredOfferAdmitted s
  | .ownClaimCompletes => Sys2Proof.Machine.execOwnClaimCompletes s
  | .ownCloseCompletes => Sys2Proof.Machine.execOwnCloseCompletes s
  | .ownClearCompletes => Sys2Proof.Machine.execOwnClearCompletes s
  | .ownEpochCompletes => Sys2Proof.Machine.execOwnEpochCompletes s
  | .ownStateCompletes => Sys2Proof.Machine.execOwnStateCompletes s
  | .ownStateReqCompletes => Sys2Proof.Machine.execOwnStateReqCompletes s
  | .ownPresenceCompletes => Sys2Proof.Machine.execOwnPresenceCompletes s
  | .frameDiscarded fault => Sys2Proof.Machine.execFrameDiscarded fault s
  | .claimAccepted h stamp epoch => Sys2Proof.Machine.execClaimAccepted h stamp epoch s
  | .closeAccepted h number => Sys2Proof.Machine.execCloseAccepted h number s
  | .clearAccepted h tick epoch => Sys2Proof.Machine.execClearAccepted h tick epoch s
  | .epochAccepted h => Sys2Proof.Machine.execEpochAccepted h s
  | .stateAccepted h body => Sys2Proof.Machine.execStateAccepted h body s
  | .stateReqAccepted h fingerprint attempt => Sys2Proof.Machine.execStateReqAccepted h fingerprint attempt s
  | .presenceAccepted h fingerprint => Sys2Proof.Machine.execPresenceAccepted h fingerprint s
  | .closeDueReached => Sys2Proof.Machine.execCloseDueReached s
  | .claimExpiry => Sys2Proof.Machine.execClaimExpiry s
  | .presenceDue => Sys2Proof.Machine.execPresenceDue s
  | .absence => Sys2Proof.Machine.execAbsence s
  | .requestDeadline => Sys2Proof.Machine.execRequestDeadline s
  | .chunkDeadline => Sys2Proof.Machine.execChunkDeadline s
  | .retryTick => Sys2Proof.Machine.execRetryTick s
  | .answerDelayEnd => Sys2Proof.Machine.execAnswerDelayEnd s
  | .listeningEnd => Sys2Proof.Machine.execListeningEnd s
  | .lineIdle => Sys2Proof.Machine.execLineIdle s
  | .startBitTaken => Sys2Proof.Machine.execStartBitTaken s
  | .breakEnd => Sys2Proof.Machine.execBreakEnd s
  | .responseEnd => Sys2Proof.Machine.execResponseEnd s

end Sys2Proof.Machine
end

