-- ==== Sys2Proof/WellFormed.lean ====
section
/-! DEFINITION. Which commands can be written: the checks on operands that the constructors' types do
not make. -/

namespace Sys2Proof

/-- The board port's fourteen command codes (R178). -/
def commandCodes : List Byte :=
  [0x11#8, 0x21#8, 0x22#8, 0x31#8, 0x41#8, 0x42#8, 0x43#8, 0x51#8, 0x52#8, 0x53#8, 0x61#8, 0x71#8,
   0x72#8, 0x7E#8]

/-- A STATE body is an even number of bytes from 18 to 48 (R64). -/
def stateLengthOk (n : Nat) : Bool := 18 ≤ n && n ≤ Config.maxBody && n % 2 == 0

/-- The argument bytes of a command code (R159). -/
def argumentCount (code : Byte) : Nat :=
  if code = 0x11#8 then 7
  else if code = 0x42#8 ∨ code = 0x43#8 ∨ code = 0x52#8 ∨ code = 0x61#8 then 2
  else 0

/-- No byte, or a command code with argument bytes still to come (R158). -/
def beginsCommand : List Byte → Bool
  | [] => true
  | code :: args => args.length < argumentCount code

/-- The operand checks: an accepted STATE frame has passed the length test of R64, an unknown command's
code is none of the fourteen (R159), and the bytes shifted in as a transaction opens make up no whole
command, whose taking is a row of its own (R158). -/
def Instr.wf : Instr → Bool
  | .stateAccepted _ body => stateLengthOk body.length
  | .unknownCommand code => !commandCodes.contains code
  | .pinReset => true
  | .resetRelease _ _ => true
  | .refArrival => true
  | .trigEdge => true
  | .transactionOpen shifted => beginsCommand shifted
  | .transactionEnd => true
  | .statusByteEnd => true
  | .setConfig _ _ _ _ _ _ => true
  | .arm => true
  | .disarm => true
  | .takeOrder => true
  | .takeOrderCommit => true
  | .listEvents => true
  | .stageEvent _ => true
  | .readStage _ _ => true
  | .readStatus => true
  | .readCounters _ _ => true
  | .readRoster => true
  | .ackFlags _ => true
  | .ackFlagsCommit => true
  | .askClear => true
  | .askEpoch => true
  | .restartStation => true
  | .restartStationCommit => true
  | .transmissionStart _ => true
  | .arbitrationLoss => true
  | .bitError => true
  | .deferredOfferAdmitted => true
  | .ownClaimCompletes => true
  | .ownCloseCompletes => true
  | .ownClearCompletes => true
  | .ownEpochCompletes => true
  | .ownStateCompletes => true
  | .ownStateReqCompletes => true
  | .ownPresenceCompletes => true
  | .frameDiscarded _ => true
  | .claimAccepted _ _ _ => true
  | .closeAccepted _ _ => true
  | .clearAccepted _ _ _ => true
  | .epochAccepted _ => true
  | .stateReqAccepted _ _ _ => true
  | .presenceAccepted _ _ => true
  | .closeDueReached => true
  | .claimExpiry => true
  | .presenceDue => true
  | .absence => true
  | .requestDeadline => true
  | .chunkDeadline => true
  | .retryTick => true
  | .answerDelayEnd => true
  | .listeningEnd => true
  | .lineIdle => true
  | .startBitTaken => true
  | .breakEnd => true
  | .responseEnd => true

end Sys2Proof
end

