-- ==== Sys2Proof/Safety.lean ====
section
/-! DEFINITION. What a lawful station is: the laws of the device that the manual states, as decidable
propositions over one state, and the replicated part of a table (R8, R11, R14, R17, R18, R20, R29, R55,
R68, R73, R92, R106, R110, R125, R140, R150, R155). -/

namespace Sys2Proof.Machine

/-! ### Records and tables -/

/-- The law of the member list: the opener first with offset 0, no address twice, at most 16 pairs, every
offset in −W..+W (R11, R12). -/
abbrev EventRecord.MembersLaw (w : Nat) (r : EventRecord) : Prop :=
  r.members.head? = some ⟨r.opener, 0⟩ ∧ r.members.length ≤ Config.maxMembers
    ∧ (r.members.map Member.addr).Nodup
    ∧ ∀ m ∈ r.members, -(w : Int) ≤ m.offset.toInt ∧ m.offset.toInt ≤ (w : Int)

/-- A record of the open slots: OPEN, nothing of a closed record present, an empty late set (R10, R14,
R16, R17). -/
abbrev EventRecord.OpenLaw (w : Nat) (r : EventRecord) : Prop :=
  r.state = .opened ∧ r.closing = none ∧ r.note = none ∧ r.late = 0 ∧ r.MembersLaw w

/-- The closing fields fit the state and the opener (R10, R34, R45, R177). -/
def EventRecord.closingOk (r : EventRecord) : Bool :=
  match r.closing with
  | none => false
  | some c =>
    match c.cause with
    | .opener  => c.closer == r.opener
    | .standIn => c.closer != r.opener
    | .epoch   => r.state == .dropped

/-- The replicated fields of a closed record: ACCEPTED or DROPPED, closing fields present, no member in
the late set (R10, R14, R18). -/
abbrev EventRecord.ClosedLaw (w : Nat) (r : EventRecord) : Prop :=
  r.state ≠ .opened ∧ r.closingOk = true ∧ r.due = none ∧ r.MembersLaw w
    ∧ ∀ m ∈ r.members, hasAddr r.late m.addr = false

/-- The laws of the table: at most four open records, all of the current epoch, at most sixteen closed
ones, each with its note, no number twice (R16, R17, R18, R20, R24). -/
abbrev Table.Law (w : Nat) (t : Table) : Prop :=
  t.slots.length ≤ Config.maxOpen ∧ (∀ r ∈ t.slots, r.OpenLaw w ∧ r.epoch = t.epoch)
    ∧ t.history.length ≤ Config.maxHistory ∧ (∀ r ∈ t.history, r.ClosedLaw w ∧ r.note ≠ none)
    ∧ ((t.slots ++ t.history).map EventRecord.number).Nodup

/-- The record without its two local parts (R15, R16, R128). -/
abbrev EventRecord.shared (r : EventRecord) : EventRecord := r.replicated

/-- The replicated part of a table: no close due and no order note (R180). -/
def Table.shared (t : Table) : Table :=
  { t with slots := t.slots.map EventRecord.shared, history := t.history.map EventRecord.shared }

/-- The receive buffer of RECEIVING: the header passed R114, every record taken passed R117, and the
snapshot is not complete (R106, R116). -/
abbrev Receiving.Law (w : Nat) (c : Receiving) : Prop :=
  c.header.openCount ≤ Config.maxOpen ∧ c.header.historyCount ≤ Config.maxHistory
    ∧ c.total = 1 + c.header.openCount + c.header.historyCount
    ∧ c.expected = c.records.length + 1 ∧ c.expected < c.total
    ∧ (∀ r ∈ c.records.take c.header.openCount, r.OpenLaw w ∧ r.epoch = c.header.epoch)
    ∧ (∀ r ∈ c.records.drop c.header.openCount, r.ClosedLaw w)
    ∧ (c.records.map EventRecord.number).Nodup ∧ ∀ r ∈ c.records, r.due = none

/-- The receive buffer of a requester in RECEIVING is lawful. -/
def RequesterPhase.bufferOk (w : Nat) (p : RequesterPhase) : Bool :=
  match p with
  | .receiving c => decide (c.Law w)
  | .none | .requesting _ | .retryWait _ => true

/-- The laws of the table at a station: its records are lawful, a snapshot being received is, every open
record has the due of R30 in IN_STEP and none elsewhere, and an UNCONFIGURED station holds no record
(R8, R29, R30, R31). -/
abbrev State.TableLaw (s : State) : Prop :=
  s.table.Law s.params.w.toNat ∧ s.requester.phase.bufferOk s.params.w.toNat = true
    ∧ (s.stepState = .inStep →
        ∀ r ∈ s.table.slots, r.due = some (closeDue s.params s.addr r.opener r.t0))
    ∧ (s.stepState ≠ .inStep → ∀ r ∈ s.table.slots, r.due = none)
    ∧ (s.stepState = .unconfigured → s.table.slots = [] ∧ s.table.history = [])

/-! ### Step state and contexts -/

/-- The responder's counts fit its snapshot buffer (R125, R128). -/
def ResponderPhase.countsOk (p : ResponderPhase) : Bool :=
  match p with
  | .sending _ b total next _ => total == 1 + b.records.length && decide (next < total)
  | .idle | .delay _ _ => true

/-- The responder is SENDING (R125). -/
def ResponderPhase.isSending : ResponderPhase → Bool
  | .sending _ _ _ _ _ => true
  | .idle | .delay _ _ => false

/-- The laws that tie the contexts to the step state. In reset the station is UNCONFIGURED with no
command answered; a configured station holds parameters in range; the tick counter is 0 in UNCONFIGURED;
the listening end is held exactly in LISTENING; the requester has a phase exactly in OUT_OF_STEP, its
counts and hold queue within R106 and R110; the responder has a context only in IN_STEP; the streak is
below V where the station votes and empty elsewhere; the station transmits only in IN_STEP or
OUT_OF_STEP; a restart is pending only at a configured station (R49, R73, R92, R106, R110, R125, R135,
R137, R140, R146). -/
abbrev State.PhaseLaw (s : State) : Prop :=
  (s.inReset = true → s.stepState = .unconfigured)
    ∧ (s.configured = true → s.params.inRange = true)
    ∧ (s.stepState = .unconfigured → s.tick = 0)
    ∧ (s.listeningEnd.isSome = true ↔ s.stepState = .listening)
    ∧ (s.requester.phase ≠ .none ↔ s.stepState = .outOfStep)
    ∧ (s.requester.phase = .none → s.requester = Requester.idle)
    ∧ s.requester.unanswered ≤ Config.maxUnanswered
    ∧ s.requester.hold.length ≤ Config.maxHold
    ∧ (s.requester.hold ≠ [] → s.requester.collecting = true)
    ∧ (s.stepState ≠ .inStep → s.responder = Responder.idle)
    ∧ (s.responder.phase = .idle → s.responder.latch = none)
    ∧ s.responder.phase.countsOk = true
    ∧ (s.applies = true → addrCount s.streak < s.params.v.toNat)
    ∧ (s.applies = false → s.streak = 0)
    ∧ (s.tx.onLine.isSome = true → s.transmits = true)
    ∧ (s.port.commit = .restart → s.configured = true)

/-! ### The outbox -/

/-- How many entries of a kind the outbox holds. -/
def Transmitter.countKind (k : Kind) (t : Transmitter) : Nat :=
  (t.outbox.filter (fun e => e.body.isKind k)).length

/-- The number a CLOSE entry names. -/
def Body.closeNumber : Body → Option Half
  | .close n => some n
  | .epoch | .clear | .claim _ _ | .state _ | .stateReq _ _ | .presence _ => none

/-- The laws of the outbox: the class limits of R68, the order of R69, attempt counts below 8, a mark
only on a CLAIM in transmission (R83; every other withdrawal finds no transmission of the station's own),
at most one entry in transmission, and deferred offers in kind order, none
of a kind admitted, only while six general entries stand (R68 to R72). -/
abbrev Transmitter.Law (t : Transmitter) : Prop :=
  t.outbox.length ≤ 12 ∧ generalCount t.outbox ≤ Config.maxGeneral ∧ t.closeCount ≤ Config.maxClose
    ∧ t.countKind .epoch ≤ 1 ∧ t.countKind .clear ≤ 1 ∧ t.countKind .state ≤ 1
    ∧ t.countKind .stateReq ≤ 1 ∧ t.countKind .presence ≤ 1
    ∧ (t.outbox.filterMap (fun e => e.body.closeNumber)).Nodup
    ∧ t.outbox.Pairwise (fun a b => a.body.kind.code ≤ b.body.kind.code)
    ∧ (∀ e ∈ t.outbox, e.attempts < Config.maxAttempts ∧ (e.mark = true → e.sending = true ∧ e.body.kind = .claim))
    ∧ (t.outbox.filter Entry.sending).length = (if t.onLine.isSome then 1 else 0)
    ∧ (∀ b ∈ t.deferred, (b.kind = .state ∨ b.kind = .stateReq ∨ b.kind = .presence)
        ∧ t.holds b.kind = false)
    ∧ t.deferred.Pairwise (fun a b => a.kind.code < b.kind.code)
    ∧ (t.deferred ≠ [] → generalCount t.outbox = Config.maxGeneral)
    ∧ t.discards < Config.maxDiscards

/-- The body stands offered: admitted afresh, or deferred while no general place is free (R70, R71). -/
abbrev Transmitter.Offers (b : Body) (t : Transmitter) : Prop :=
  Entry.fresh b ∈ t.outbox ∨ b ∈ t.deferred

/-- The entries that are not in transmission, in their places. -/
def Transmitter.waiting (t : Transmitter) : List Entry := t.outbox.filter (fun e => !e.sending)

/-- The laws of the outbox at a station: it is empty where the station does not transmit, holds no
ordered frame outside IN_STEP, holds a STATE exactly while a snapshot is sent and a STATE_REQ exactly
while a request waits to be sent, and every CLOSE entry names an open record (R32, R33, R55, R68, R107,
R128). -/
abbrev State.OutboxLaw (s : State) : Prop :=
  s.tx.Law
    ∧ (s.transmits = false → s.tx.outbox = [] ∧ s.tx.deferred = [])
    ∧ (s.stepState ≠ .inStep → ∀ e ∈ s.tx.outbox, e.body.kind.ordered = false)
    ∧ s.tx.queued .state = s.responder.phase.isSending
    ∧ (s.tx.queued .stateReq = true ↔ s.requester.phase = .requesting none)
    ∧ ∀ e ∈ s.tx.outbox, e.body.closeNumber.all (fun n => s.table.slots.any (fun r => r.number == n))

/-! ### The Order Queue -/

/-- The laws of the Order Queue: at most eight orders, no number twice, a pending mark only on the head
(R150, R155). -/
abbrev State.OrdersLaw (s : State) : Prop :=
  s.orders.length ≤ Config.maxOrders ∧ (s.orders.map (fun o => o.order.number)).Nodup
    ∧ ∀ o ∈ s.orders.tail, o.pending = false

/-! ### Acceptances -/

/-- The vote on a frame leaves the step state of a station that applies ordered frames as it is: the
station is MUTE, or no vote is called for, or it agrees, or the streak with the sender in it stays below V
(R88, R91, R93, R96). -/
abbrev State.KeepsStep (h : Header) (s : State) : Prop :=
  s.stepState = .mute
    ∨ (s.stepState = .inStep ∧ (h.inStep = false ∨ (s.roster.entry h.sender).mismatched = true
        ∨ (h.count = s.table.count ∧ h.digest = s.table.digest)
        ∨ addrCount (addAddr s.streak h.sender) < s.params.v.toNat))

/-- The vote on a frame takes the station out of step: it is IN_STEP, the vote is called for and
disagrees, and the streak with the sender in it reaches V (R88, R89, R91, R93). -/
abbrev State.LeavesStep (h : Header) (s : State) : Prop :=
  s.stepState = .inStep ∧ h.inStep = true ∧ (s.roster.entry h.sender).mismatched = false
    ∧ (h.count ≠ s.table.count ∨ h.digest ≠ s.table.digest)
    ∧ s.params.v.toNat ≤ addrCount (addAddr s.streak h.sender)

/-- A CLEAR with this header finds the station OUT_OF_STEP when it goes to its owner: the station is so
already, the vote on the frame takes it out of step, or the frame ends its listening period (R41, R93, R142). -/
abbrev State.Rejoins (h : Header) (s : State) : Prop :=
  s.stepState = .outOfStep ∨ s.LeavesStep h ∨ (s.stepState = .listening ∧ h.inStep = true)

/-- The frame reaches the station without an effect on its step state or its table: the station is
UNCONFIGURED or in CONFLICT, or LISTENING and the frame's in-step flag is clear (R1, R42, R141). -/
abbrev State.OnlyListens (h : Header) (s : State) : Prop :=
  s.stepState = .unconfigured ∨ s.stepState = .conflict
    ∨ (s.stepState = .listening ∧ h.inStep = false)

/-- The body is a STATE chunk of index 0, of a length that suits a STATE frame, for the target
(R64, R127, R176). -/
def stateBodyTargets (target : Addr) (body : List Byte) : Bool :=
  Kind.lengthOk .state body.length && body.getD 0 0 == addrByte target && body.getD 1 1 == 0#8

/-- The frame neither ends a listening period nor is voted on: its in-step flag is clear, or the station is
not LISTENING and either applies no ordered frame or finds that the fingerprint carried is not its own
(R88, R99, R141). -/
abbrev State.OnlyRecords (h : Header) (carried : Half) (s : State) : Prop :=
  h.inStep = false
    ∨ (s.stepState ≠ .listening ∧ (s.applies = false ∨ carried ≠ s.fingerprint))

/-- The frame is voted on: the station is IN_STEP or MUTE, the frame's in-step flag is set, and its sender
does not carry the MISMATCHED mark once a fingerprint carried has been tested (R88, R99). -/
abbrev State.VotesOn (h : Header) (c : Instr) (s : State) : Prop :=
  s.applies = true ∧ h.inStep = true
    ∧ ((((∃ st ep, c = .claimAccepted h st ep) ∨ (∃ n, c = .closeAccepted h n)
          ∨ (∃ tk ep, c = .clearAccepted h tk ep) ∨ c = .epochAccepted h
          ∨ ∃ body, c = .stateAccepted h body ∧ c.wf = true)
        ∧ (s.roster.entry h.sender).mismatched = false)
      ∨ (((∃ k, c = .stateReqAccepted h s.fingerprint k) ∨ c = .presenceAccepted h s.fingerprint)
        ∧ (h.sender ≠ s.addr ∨ (s.roster.entry h.sender).mismatched = false)))

/-- `t` is the station `s` after it has recorded an accepted frame, `mark` being the sender's MISMATCHED mark
after the test of a fingerprint carried: ADDRESS_CLASH is set by the own address as sender, a peer's entry
takes the frame's flags, the tick and presence, a SUSPECT one that agrees at the vote being PRESENT again, and
the own entry takes no record (R66, R67, R89, R90, R97, R98). -/
abbrev State.Recorded (h : Header) (mark : Bool) (s t : State) : Prop :=
  t.hasFlag .addressClash = (s.hasFlag .addressClash || h.sender == s.addr)
    ∧ (h.sender ≠ s.addr →
        (t.roster.entry h.sender).inStep = h.inStep ∧ (t.roster.entry h.sender).armed = h.armed
          ∧ (t.roster.entry h.sender).heard = t.tick ∧ (t.roster.entry h.sender).mismatched = mark
          ∧ (t.roster.entry h.sender).presence =
              if (s.roster.entry h.sender).presence = .absent
                ∨ (s.applies = true ∧ h.inStep = true ∧ mark = false
                    ∧ h.count = s.table.count ∧ h.digest = s.table.digest) then .present
              else (s.roster.entry h.sender).presence)
    ∧ ∀ a, a ≠ h.sender ∨ a = s.addr →
        (t.roster.entry a).inStep = (s.roster.entry a).inStep
          ∧ (t.roster.entry a).armed = (s.roster.entry a).armed
          ∧ (t.roster.entry a).mismatched = (s.roster.entry a).mismatched

/-- The sender's MISMATCHED mark stands as it was: the frame carries no fingerprint (R99). -/
abbrev State.RecordedPlain (h : Header) (s t : State) : Prop :=
  s.Recorded h (s.roster.entry h.sender).mismatched t

/-- The sender's MISMATCHED mark after the test of a fingerprint carried, made in every configured state
(R99). -/
abbrev State.RecordedTested (h : Header) (carried : Half) (s t : State) : Prop :=
  s.Recorded h (if s.stepState = .unconfigured then (s.roster.entry h.sender).mismatched
                else decide (carried ≠ s.fingerprint)) t

/-- Every open record whose due is reached has its CLOSE in the outbox (R32). -/
abbrev State.ReachedDuesQueued (t : State) : Prop :=
  ∀ r ∈ t.table.slots, reachedOpt t.tick r.due = true →
    t.tx.outbox.any (fun e => e.body == .close r.number) = true

/-- The hold queue has a gap at `position`: after frames before it and frames that follow on from it comes
one whose carried count is after the running count (R118). -/
abbrev GapAt (position : Half) (hold : List Held) : Prop :=
  ∃ old new f rest, hold = old ++ new ++ f :: rest
    ∧ (∀ x ∈ old, countBefore x.count position = true)
    ∧ (∀ i x, new[i]? = some x → x.count = position + BitVec.ofNat 16 i)
    ∧ countBefore (position + BitVec.ofNat 16 new.length) f.count = true

/-- `t` is the station `s` after the install of a snapshot, made at tick `now`, with the held frames
`marked` applied: the table of the header and the records, history noted NOT_SEEN (R119), with those frames
applied to it (R120), a due for each record then open and a CLOSE queued for each due already reached (R121).
-/
abbrev State.InstalledAs (hd : SnapHeader) (records : List EventRecord) (marked : List Held) (now : Tick)
    (s t : State) : Prop :=
  t.stepState = .inStep ∧ t.requester = Requester.idle ∧ t.streak = s.streak
    ∧ t.counter .resyncsDone = satAdd16 (s.counter .resyncsDone) 1
    ∧ t.counter .framesApplied = satAdd16 (s.counter .framesApplied) marked.length
    ∧ ∀ x : State, x = State.applyHeld marked
        { s with table := { count := hd.position, digest := hd.digest, next := hd.next,
                            epoch := hd.epoch, overflow := hd.overflow, stale := hd.stale,
                            void := hd.void, slots := records.take hd.openCount,
                            history := (records.drop hd.openCount).map
                              (fun r => { r with note := some .notSeen }) } } →
      t.table = { x.table with
          slots := x.table.slots.map
            (fun r => { r with due := some (closeDue s.params s.addr r.opener r.t0) }) }
        ∧ t.orders = x.orders ∧ (∀ k, k ≠ .resyncsDone → t.counter k = x.counter k)
        ∧ (s.OutboxLaw → hd.openCount ≤ Config.maxOpen →
            ∀ r ∈ t.table.slots, reachedOpt now r.due = true →
              t.tx.outbox.any (fun e => e.body == .close r.number) = true)

/-! ### Runs -/

/-- One ordered frame applied: a CLAIM, CLOSE or EPOCH with its sender, or a CLEAR (R21). -/
def State.applyOrdered (f : Addr × Option Sequenced) (s : State) : State :=
  match f.2 with
  | some body => s.applyFrame f.1 body
  | none      => s.applyClear

/-- Ordered frames applied one after another, in bus order (R2). -/
def State.applyAll (fs : List (Addr × Option Sequenced)) (s : State) : State :=
  fs.foldl (fun s f => s.applyOrdered f) s

/-- A safe state: every law of the device holds in it. -/
abbrev State.Lawful (s : State) : Prop :=
  s.PhaseLaw ∧ s.TableLaw ∧ s.OutboxLaw ∧ s.OrdersLaw

end Sys2Proof.Machine

namespace Sys2Proof

/-- The command comes over the board port: an edge of CSn, a command taken, the end of a byte or of a
response, or a commit (chapter 9). -/
def Instr.boardSide : Instr → Bool
  | .transactionOpen _ | .transactionEnd | .statusByteEnd | .responseEnd
  | .setConfig _ _ _ _ _ _ | .arm | .disarm | .takeOrder | .takeOrderCommit | .listEvents
  | .stageEvent _ | .readStage _ _ | .readStatus | .readCounters _ _ | .readRoster | .ackFlags _
  | .ackFlagsCommit | .askClear | .askEpoch | .restartStation | .restartStationCommit
  | .unknownCommand _ => true
  | .pinReset | .resetRelease _ _ | .refArrival | .trigEdge
  | .transmissionStart _ | .arbitrationLoss | .bitError | .deferredOfferAdmitted
  | .ownClaimCompletes | .ownCloseCompletes | .ownClearCompletes | .ownEpochCompletes
  | .ownStateCompletes | .ownStateReqCompletes | .ownPresenceCompletes | .frameDiscarded _
  | .claimAccepted _ _ _ | .closeAccepted _ _ | .clearAccepted _ _ _ | .epochAccepted _
  | .stateAccepted _ _ | .stateReqAccepted _ _ _ | .presenceAccepted _ _ | .closeDueReached
  | .claimExpiry | .presenceDue | .absence | .requestDeadline | .chunkDeadline | .retryTick
  | .answerDelayEnd | .listeningEnd | .lineIdle | .startBitTaken | .breakEnd => false

end Sys2Proof
end

