-- ==== Sys2Proof/Certificates/Slice0/Obligations.lean ====
section
/-! DEFINITION. The statements about the station, for the provers. -/

open Sys2Proof Sys2Proof.Machine

/-! ### The machine as a whole -/

/-- A step takes the command at the front of the queue and executes it with the rest; an empty queue
idles (the model's choice, log 1). -/
def Obligations.StepRunsTheFrontCommand : Prop :=
  ∀ (c : Instr) (rest : List Instr) (s : State),
    step { s with pending := c :: rest } = exec c { s with pending := rest }
      ∧ step { s with pending := [] } = .next { s with pending := [] }

/-- The station held in reset keeps every law of the device. -/
def Obligations.ResetStateIsLawful : Prop := State.reset.Lawful

/-- Every step keeps the laws that tie the contexts, the streak and the line to the step state. -/
def Obligations.EveryStepKeepsThePhaseLaw : Prop :=
  ∀ s t : State, s.PhaseLaw → step s = .next t → t.PhaseLaw

/-- Every step keeps the laws of the agreement table, its records, its dues and the receive buffer. -/
def Obligations.EveryStepKeepsTheTableLaw : Prop :=
  ∀ s t : State, s.PhaseLaw → s.TableLaw → step s = .next t → t.TableLaw

/-- Every step keeps the laws of the outbox. -/
def Obligations.EveryStepKeepsTheOutboxLaw : Prop :=
  ∀ s t : State, s.PhaseLaw → s.OutboxLaw → step s = .next t → t.OutboxLaw

/-- Every step keeps the laws of the Order Queue. -/
def Obligations.EveryStepKeepsTheOrdersLaw : Prop :=
  ∀ s t : State, s.OrdersLaw → step s = .next t → t.OrdersLaw

/-- No command but a pin reset and the commit of a restart lowers a counter, and none but these and the
commit of an ACK_FLAGS clears a sticky flag. A flag that goes from clear to set leaves the attention bit set,
and is noted against a status byte being shifted out. ALERT is asserted while a flag is set and ORDER while
the queue holds an order, neither in reset; ORDER falls only at the commit of a TAKE_ORDER, a CLEAR, a pin
reset and the commit of a restart (R135, R153, R163, R172, R174). -/
def Obligations.CountersAndFlagsOnlyRise : Prop :=
  (∀ (c : Instr) (s t : State) (k : Counter), exec c s = .next t → c ≠ .pinReset →
      c ≠ .restartStationCommit → (s.counter k).toNat ≤ (t.counter k).toNat)
  ∧ (∀ (c : Instr) (s t : State) (f : Flag), exec c s = .next t → c ≠ .pinReset →
      c ≠ .restartStationCommit → c ≠ .ackFlagsCommit → s.hasFlag f = true → t.hasFlag f = true)
  ∧ (∀ (c : Instr) (s t : State) (f : Flag), exec c s = .next t → s.hasFlag f = false →
      t.hasFlag f = true → t.attention = true ∧ t.alertLine = true
        ∧ t.port = { s.port with fresh := true })
  ∧ (∀ s : State, (s.alertLine = true ↔ s.inReset = false ∧ ∃ f : Flag, s.hasFlag f = true)
      ∧ (s.orderLine = true ↔ s.inReset = false ∧ ∃ o, o ∈ s.orders))
  ∧ (∀ (c : Instr) (s t : State), exec c s = .next t → c ≠ .pinReset → c ≠ .restartStationCommit →
      c ≠ .takeOrderCommit → c ≠ .ownClearCompletes → (∀ h tk ep, c ≠ .clearAccepted h tk ep) →
      s.orderLine = true → t.orderLine = true)

/-- Address and rate hold until a pin reset, the parameters and the fingerprint from the first accepted
SET_CONFIG until a pin reset (R136, R138). -/
def Obligations.ConfigurationIsHeld : Prop :=
  ∀ (c : Instr) (s t : State), exec c s = .next t → c ≠ .pinReset →
    (∀ a r, c ≠ .resetRelease a r) →
      t.addr = s.addr ∧ t.rate = s.rate
        ∧ (s.configured = true → t.params = s.params ∧ t.fingerprint = s.fingerprint)

/-- CONFLICT is left at a pin reset alone, MUTE at a pin reset or the commit of a restart alone
(R87, R133). -/
def Obligations.ConflictAndMuteAreLeftByResets : Prop :=
  ∀ (c : Instr) (s t : State), s.PhaseLaw → exec c s = .next t → c ≠ .pinReset →
    (s.stepState = .conflict → t.stepState = .conflict)
      ∧ (s.stepState = .mute → c ≠ .restartStationCommit → t.stepState = .mute)

/-- No pin, line, frame or tick command touches the configuration, the straps, the arm state, the stage
buffer or the board's transaction; what one does to the port is to note a newly set flag
(R77, R136, R138, R163, R166). -/
def Obligations.BusSideLeavesTheBoardSide : Prop :=
  ∀ (c : Instr) (s t : State), c.boardSide = false → exec c s = .next t → c ≠ .pinReset →
    (∀ a r, c ≠ .resetRelease a r) →
      t.inReset = s.inReset ∧ t.csnHigh = s.csnHigh ∧ t.addr = s.addr ∧ t.rate = s.rate
        ∧ t.params = s.params ∧ t.fingerprint = s.fingerprint ∧ t.armed = s.armed
        ∧ t.stage = s.stage ∧ t.pending = s.pending ∧ t.port = { s.port with fresh := t.port.fresh }
        ∧ (s.port.fresh = true → t.port.fresh = true) ∧ (s.attention = true → t.attention = true)

/-- No board command but SET_CONFIG and the commit of a restart touches the agreement table, the step
state or the configuration, and none but the latter a context, the roster, the line, the tick or a counter;
each touches only the state its own rule names (R137, R154, R164, R165 to R171, R173). -/
def Obligations.BoardSideLeavesTheBusSide : Prop :=
  ∀ (c : Instr) (s t : State), c.boardSide = true → exec c s = .next t →
    c ≠ .restartStationCommit →
      t.inReset = s.inReset ∧ t.addr = s.addr ∧ t.rate = s.rate ∧ t.tick = s.tick ∧ t.rx = s.rx
        ∧ t.rxRecessive = s.rxRecessive ∧ t.roster = s.roster ∧ t.lastSent = s.lastSent
        ∧ t.requester = s.requester ∧ t.responder = s.responder ∧ t.counters = s.counters ∧ t.pending = s.pending
        ∧ t.tx = { s.tx with outbox := t.tx.outbox }
        ∧ (c ≠ .askClear → c ≠ .askEpoch → t.tx.outbox = s.tx.outbox)
        ∧ ((∀ w g q h p v, c ≠ .setConfig w g q h p v) →
            t.params = s.params ∧ t.fingerprint = s.fingerprint ∧ t.table = s.table
              ∧ t.stepState = s.stepState ∧ t.listeningEnd = s.listeningEnd
              ∧ t.lastClaimed = s.lastClaimed ∧ t.streak = s.streak
              ∧ (c ≠ .arm → c ≠ .disarm → t.armed = s.armed))
        ∧ (c ≠ .takeOrder → c ≠ .takeOrderCommit → c ≠ .transactionEnd → t.orders = s.orders)
        ∧ ((∀ n, c ≠ .stageEvent n) → t.stage = s.stage)
        ∧ (c ≠ .ackFlagsCommit → t.flags = s.flags)

/-- Two stations with the same replicated table and fingerprint, W and Q that apply the same ordered
frames hold the same replicated table afterwards, and each agrees with the other's headers (R180). Equal
W and Q are asked for beside the fingerprint, which a CRC does not decide. -/
def Obligations.SameFramesGiveTheSameTable : Prop :=
  ∀ (x y : State) (fs : List (Addr × Option Sequenced)) (h : Header),
    x.table.shared = y.table.shared → x.fingerprint = y.fingerprint →
    x.params.w = y.params.w → x.params.q = y.params.q →
      (x.applyAll fs).table.shared = (y.applyAll fs).table.shared
        ∧ (h.count = (x.applyAll fs).table.count → h.digest = (x.applyAll fs).table.digest →
            (y.applyAll fs).agrees h = true)

/-- A snapshot of a lawful table passes every check of a requester and describes that table: the header
is read back and passes R114, each record chunk passes R117 in its place and reads back as the record,
and the table they install is the table copied, its local parts apart (R114, R117, R119, R128, R177). -/
def Obligations.SnapshotOfALawfulTableIsTaken : Prop :=
  ∀ (s : State) (tick : Tick), s.TableLaw →
    readSnapHeader (s.snapshot.header.payload tick) = some (s.snapshot.header, tick)
      ∧ headerOk (3 + (s.snapshot.header.payload tick).length) (1 + s.snapshot.records.length)
          s.snapshot.header = true
      ∧ (∀ i r, s.snapshot.records[i]? = some r →
          checkRecord s.params.w.toNat (i + 1 ≤ s.snapshot.header.openCount) s.snapshot.header.epoch
              (s.snapshot.records.take i) r.payload = some r
            ∧ 3 + r.payload.length = 16 + 2 * r.members.length)
      ∧ (installedTable s.snapshot.header s.snapshot.records).shared = s.table.shared

/-- An install whose held frames are first frames the snapshot already includes and then the frames
applied after it leaves the requester IN_STEP with the replicated table of its responder's live table
(R118 to R121, R181). -/
def Obligations.InstallReachesTheLiveTable : Prop :=
  ∀ (x y : State) (old new : List Held), x.requester.hold = old ++ new →
    (∀ f ∈ old, countBefore f.count y.table.count = true) →
    (∀ i f, new[i]? = some f → f.count = y.table.count + BitVec.ofNat 16 i) →
    x.fingerprint = y.fingerprint → x.params.w = y.params.w → x.params.q = y.params.q →
      ((x.install y.snapshot.header y.snapshot.records).table.shared
          = (y.applyAll (new.map (fun f => (f.sender, some f.body)))).table.shared)
        ∧ (x.install y.snapshot.header y.snapshot.records).stepState = .inStep
        ∧ (x.install y.snapshot.header y.snapshot.records).requester = Requester.idle

/-! ### Layouts -/

/-- A frame sent is the frame received: the bits of a lawful frame on PBD, stuffed and closed by its end
field, are read back as its kind, header and body, and the command they amount to is well formed
(R50, R53, R64, R65, R176, R179). -/
def Obligations.FrameOnTheLineIsReadBack : Prop :=
  ∀ f : Frame, f.kind.lengthOk f.body.length = true →
    Decode.wire f.wire = Decode.acceptedFrame f.kind f.header f.body
      ∧ (Decode.acceptedFrame f.kind f.header f.body).wf = true
      ∧ ∀ fault, Decode.acceptedFrame f.kind f.header f.body ≠ .frameDiscarded fault

/-- Removing the stuff bits gives the bits stuffed, and no stuffed sequence holds seven equal bits in a
row (R50). -/
def Obligations.StuffingIsRemovedAndBoundsRuns : Prop :=
  ∀ bits : List Bool, unstuff (stuff bits) = some bits
    ∧ ∀ (i : Nat) (b : Bool), ((stuff bits).drop i).take 7 ≠ List.replicate 7 b

/-- The bytes of a board command are read back as that command, and as none while an argument byte is
missing (R159, R178). -/
def Obligations.BoardCommandBytesAreReadBack : Prop :=
  ∀ (c : Instr) (bytes : List Byte), c.wf = true → Decode.commandBytes c = some bytes →
    Decode.command bytes = some c ∧ ∀ n, n < bytes.length → Decode.command (bytes.take n) = none

/-- Words written out from R22, R178 and R179: the CRC of 31h to 39h, the CLAIM of station 5 and its
digested bytes, the CLOSE of station 2, SET_CONFIG and READ_STAGE on the board port, a code that names no
command and a kind code that names no kind. -/
def Obligations.WordsOfTheManualAreRead : Prop :=
  crc16 0xFFFF#16 [0x31#8, 0x32#8, 0x33#8, 0x34#8, 0x35#8, 0x36#8, 0x37#8, 0x38#8, 0x39#8] = 0x29B1#16
    ∧ digestedBytes 5 (.claim 1000 3) = [0x55#8, 0x00#8, 0x03#8, 0xE8#8, 0x03#8]
    ∧ digestedBytes 2 (.close 17) = [0x42#8, 0x00#8, 0x11#8]
    ∧ digestedBytes 2 .epoch = [0x12#8]
    ∧ Decode.command [0x11#8, 10#8, 4#8, 2#8, 20#8, 0x03#8, 0xE8#8, 2#8]
        = some (.setConfig 10 4 2 20 1000 2)
    ∧ Decode.command [0x43#8, 16#8, 8#8] = some (.readStage 16 8)
    ∧ Decode.command [0xFF#8] = some (.unknownCommand 0xFF#8)
    ∧ Decode.frame [0x35#8, 0x80#8, 0#8, 0#8, 0#8, 0#8, 0#8, 0#8] = .frameDiscarded .kind

/-! ### Reset, straps, REF and TRIG -/

/-- PIN_RESET holds every block at its reset values; RESET_RELEASE samples the straps and leaves reset,
the port waiting for a high CSn unless it sees one; while RESETn is low every other command leaves the
station as it is, only the level of CSn, an input, being followed (R135, R136, R158). What the straps read
before they are sampled is the model's choice (log 2), and so is that a release outside reset does nothing
(log 4). -/
def Obligations.PinResetHoldsAndReleases : Prop :=
  (∀ (addr : Addr) (rate : BitVec 2) (s : State),
      exec .pinReset s = .next { State.reset with csnHigh := s.csnHigh, pending := s.pending }
        ∧ (s.inReset = true → exec (.resetRelease addr rate) s =
            .next { s with inReset := false, addr := addr, rate := rate,
                           port := { s.port with txn := if s.csnHigh then .idle else .waitHigh } })
        ∧ (s.inReset = false → exec (.resetRelease addr rate) s = .next s))
  ∧ (∀ (c : Instr) (s : State), s.inReset = true → c ≠ .pinReset → (∀ a r, c ≠ .resetRelease a r) →
      exec c s = .next { s with
        csnHigh := match c with
          | .transactionOpen _ => false
          | .transactionEnd => true
          | _ => s.csnHigh })

/-- A REF arrival adds 1 to the counter in every configured state and is not counted in UNCONFIGURED
(R73, R74); at the new value every block makes its test, the same as the row of its due makes (their order is
the model's choice, log 5), and what the tests never touch is unchanged. A set of the counter makes no
PRESENCE due and no peer ABSENT, and reaches no deadline of either resync context and no listening end that
was not reached before it (R102, R115, R140; the model makes no test at a set, log 6). -/
def Obligations.TheCounterCountsAndIsSet : Prop :=
  (∀ s : State, s.inReset = false →
      (s.stepState = .unconfigured → exec .refArrival s = .next s)
        ∧ exec .claimExpiry s = .next s.testExpiry
        ∧ exec .closeDueReached s = .next s.scheduleCloses
        ∧ exec .presenceDue s = .next s.offerPresence
        ∧ exec .absence s = .next s.markAbsent
        ∧ exec .requestDeadline s = .next s.testRequest
        ∧ exec .chunkDeadline s = .next s.testChunk
        ∧ exec .retryTick s = .next s.testRetry
        ∧ exec .answerDelayEnd s = .next s.testDelay
        ∧ exec .listeningEnd s = .next s.testListening
        ∧ (s.stepState ≠ .unconfigured → ∃ t, exec .refArrival s = .next t
            ∧ t = State.testListening (State.testDelay (State.testRetry (State.testChunk
                (State.testRequest (State.markAbsent (State.offerPresence (State.scheduleCloses
                  (State.testExpiry { s with tick := s.tick + 1 }))))))))
            ∧ t.tick = s.tick + 1
            ∧ t.armed = s.armed ∧ t.lastClaimed = s.lastClaimed ∧ t.orders = s.orders
            ∧ t.stage = s.stage ∧ t.rx = s.rx ∧ t.rxRecessive = s.rxRecessive
            ∧ t.params = s.params ∧ t.fingerprint = s.fingerprint
            ∧ t.addr = s.addr ∧ t.rate = s.rate ∧ t.csnHigh = s.csnHigh ∧ t.inReset = s.inReset
            ∧ t.pending = s.pending ∧ t.port.txn = s.port.txn ∧ t.port.response = s.port.response
            ∧ t.port.commit = s.port.commit ∧ t.tx.onLine = s.tx.onLine
            ∧ t.tx.breaking = s.tx.breaking ∧ t.tx.yielding = s.tx.yielding
            ∧ t.tx.discards = s.tx.discards
            ∧ (s.stepState ≠ .listening → t.table.history = s.table.history
                ∧ t.table.count = s.table.count ∧ t.table.digest = s.table.digest
                ∧ t.table.slots.length = s.table.slots.length)))
  ∧ (∀ (s : State) (new : Tick), s.params.inRange = true →
      (∀ a, (s.setTick new).absent a = false)
        ∧ (s.setTick new).offerPresence = s.setTick new
        ∧ (s.testRequest = s → (s.setTick new).testRequest = s.setTick new)
        ∧ (s.testChunk = s → (s.setTick new).testChunk = s.setTick new)
        ∧ (s.testRetry = s → (s.setTick new).testRetry = s.setTick new)
        ∧ (s.testDelay = s → (s.setTick new).testDelay = s.setTick new)
        ∧ (s.testListening = s → (s.setTick new).testListening = s.setTick new))

/-- A TRIG edge raises TRIG_SEEN and is then ignored, merged, claimed or refused, by the first test that
holds (R79, R80, R81). -/
def Obligations.TrigEdgeIsDecided : Prop :=
  ∀ s : State, s.inReset = false →
    exec .trigEdge s =
      if s.stepState ≠ .inStep ∨ s.armed = false then
        .next ((s.rise .trigSeen 1).rise .trigIgnored 1)
      else if ∃ l, s.lastClaimed = some l ∧ (s.tick - l).toNat ≤ s.params.h.toNat then
        .next ((s.rise .trigSeen 1).rise .trigMerged 1)
      else if generalCount s.tx.outbox < 6 then
        .next { s.rise .trigSeen 1 with
                  tx := { s.tx with
                    outbox := insertEntry
                      { body := .claim s.tick s.table.epoch, attempts := 0, sending := false,
                        mark := false } s.tx.outbox },
                  lastClaimed := some s.tick }
      else .next (((s.rise .trigSeen 1).rise .claimsRefused 1).setFlag .claimRefused)

/-! ### The board port -/

/-- The status byte and the result open every response; the byte shows the six fields of R161 in the
layout of R178, and loading it changes nothing but the port (R159, R161, R162). -/
def Obligations.ResponseOpensWithTheStatusByte : Prop :=
  ∀ (r : Result) (data : List Byte) (c : Commit) (s : State),
    ∃ b : Byte,
      s.respond r data c =
        { s with port := { txn := .response, shifted := [], response := b :: r.code :: data,
                           commit := c, carried := s.attention, fresh := false, statusOut := false } }
      ∧ b.getLsbD 7 = !s.tx.outbox.isEmpty ∧ b.getLsbD 6 = s.stage.isSome
      ∧ b.getLsbD 5 = s.attention ∧ b.getLsbD 4 = !s.orders.isEmpty ∧ b.getLsbD 3 = s.armed
      ∧ b.extractLsb' 0 3 =
          match s.stepState with
          | .unconfigured => 0#3 | .listening => 1#3 | .inStep => 2#3 | .outOfStep => 3#3
          | .conflict => 4#3 | .mute => 5#3

/-- A fall of CSn in IDLE opens a transaction, in COMMAND while no command byte is in and in ARGUMENTS once one
is in that carries argument bytes, and in WAIT_HIGH opens none; a command is taken whose bytes go on from those
that are in; a rise of CSn, in ARGUMENTS too, ends the transaction, drops the bytes that are in, a pending
commit and a pending mark, and leaves everything else. The end of the status byte clears the
attention bit when the byte carried it and no flag has been newly set since the load; the end of a response
without a commit leaves the transaction TRAILING (R154, R158, R160, R163). That a fall of a line already low
does nothing is the model's choice (log 4). -/
def Obligations.TransactionsRunToTheirEnd : Prop :=
  (∀ s : State, s.inReset = false →
      (s.csnHigh = true → s.port.txn = .idle → exec (.transactionOpen []) s =
          .next { s with csnHigh := false, port := { Port.reset with txn := .command } })
        ∧ (∀ code args, s.csnHigh = true → s.port.txn = .idle →
            (code = 0x11#8 ∧ args.length < 7)
              ∨ ((code = 0x42#8 ∨ code = 0x43#8 ∨ code = 0x52#8 ∨ code = 0x61#8) ∧ args.length < 2) →
            exec (.transactionOpen (code :: args)) s = .next { s with
              csnHigh := false,
              port := { Port.reset with txn := .arguments, shifted := code :: args } })
        ∧ (∀ c bytes, Decode.commandBytes c = some bytes → (s.takesCommand c = true ↔
            (s.port.txn = .command ∨ s.port.txn = .arguments) ∧ s.port.shifted <+: bytes))
        ∧ (∀ shifted, s.csnHigh = false → exec (.transactionOpen shifted) s = .next s)
        ∧ (s.csnHigh = false → exec .transactionEnd s =
            .next { s with csnHigh := true, port := { Port.reset with txn := .idle },
                           orders := s.orders.map (fun o => { o with pending := false }) }))
  ∧ (∀ s : State, s.inReset = false → s.port.txn = .response →
      (s.port.statusOut = false → exec .statusByteEnd s =
          .next { s with
            attention := if s.port.carried = true ∧ s.port.fresh = false then false else s.attention,
            port := { s.port with statusOut := true } })
        ∧ (s.port.statusOut = true → s.port.commit = .nothing → exec .responseEnd s =
            .next { s with port := { s.port with txn := .trailing } }))

/-- SET_CONFIG with every parameter in range is accepted in UNCONFIGURED and starts the listening period;
a parameter out of range is answered BAD_CONFIG and a configured station ALREADY_CONFIGURED, both without
effect (R137, R138). -/
def Obligations.SetConfigIsAnswered : Prop :=
  ∀ (w g q h : Byte) (p : Half) (v : Byte) (s : State),
    s.takesCommand (.setConfig w g q h p v) = true →
    (s.stepState ≠ .unconfigured →
        exec (.setConfig w g q h p v) s = .next (s.respond .alreadyConfigured [] .nothing))
      ∧ (s.stepState = .unconfigured →
          ¬(1 ≤ w.toNat ∧ w.toNat ≤ 127 ∧ 1 ≤ g.toNat ∧ g.toNat ≤ 63 ∧ 1 ≤ q.toNat ∧ q.toNat ≤ 16
            ∧ 16 ≤ p.toNat ∧ p.toNat ≤ 4095 ∧ 1 ≤ v.toNat ∧ v.toNat ≤ 3) →
          exec (.setConfig w g q h p v) s = .next (s.respond .badConfig [] .nothing))
      ∧ (s.stepState = .unconfigured →
          (1 ≤ w.toNat ∧ w.toNat ≤ 127 ∧ 1 ≤ g.toNat ∧ g.toNat ≤ 63 ∧ 1 ≤ q.toNat ∧ q.toNat ≤ 16
            ∧ 16 ≤ p.toNat ∧ p.toNat ≤ 4095 ∧ 1 ≤ v.toNat ∧ v.toNat ≤ 3) →
          exec (.setConfig w g q h p v) s =
            .next (State.respond .ok [] .nothing
              { s with
                params       := { w := w, g := g, q := q, h := h, p := p, v := v },
                fingerprint  := crc16 0xFFFF#16 [w, g, q, v],
                table        := { s.table with digest := crc16 0xFFFF#16 [w, g, q, v] },
                stepState    := .listening,
                listeningEnd := some (s.tick + BitVec.ofNat 24 (4 * p.toNat + 64)),
                armed        := false,
                lastClaimed  := none,
                streak       := 0 }))

/-- ARM and DISARM set the arm state in every configured state and say whether it changed, and are refused
in UNCONFIGURED; ASK_CLEAR and ASK_EPOCH admit an entry in IN_STEP unless one of the kind stands, and are
answered NOT_IN_STEP elsewhere; a code that names no command is answered UNKNOWN without effect
(R77, R159, R164, R171, R178). -/
def Obligations.ShortCommandsAreAnswered : Prop :=
  (∀ s : State,
      (s.takesCommand .arm = true → exec .arm s =
          if s.stepState = .unconfigured then .next (s.respond .notConfigured [] .nothing)
          else .next (State.respond (if s.armed then .already else .ok) [] .nothing
                                  { s with armed := true }))
        ∧ (s.takesCommand .disarm = true → exec .disarm s =
          if s.stepState = .unconfigured then .next (s.respond .notConfigured [] .nothing)
          else .next (State.respond (if s.armed then .ok else .already) [] .nothing
                                  { s with armed := false })))
  ∧ (∀ s : State,
      (s.takesCommand .askClear = true → exec .askClear s =
          if s.stepState ≠ .inStep then .next (s.respond .notInStep [] .nothing)
          else if s.tx.outbox.any (fun e => e.body == .clear) then .next (s.respond .already [] .nothing)
          else .next ((s.admitEntry .clear).respond .ok [] .nothing))
        ∧ (s.takesCommand .askEpoch = true → exec .askEpoch s =
          if s.stepState ≠ .inStep then .next (s.respond .notInStep [] .nothing)
          else if s.tx.outbox.any (fun e => e.body == .epoch) then .next (s.respond .already [] .nothing)
          else .next ((s.admitEntry .epoch).respond .ok [] .nothing)))
  ∧ (∀ (code : Byte) (s : State), s.takesCommand (.unknownCommand code) = true → (Instr.unknownCommand code).wf = true →
      exec (.unknownCommand code) s = .next (s.respond .unknown [] .nothing))

/-- TAKE_ORDER copies and marks the head, or answers NO_ORDER with eight bytes of 00h; the commit at the
end of the response removes the head when it still carries the mark (R154, R155, R178). -/
def Obligations.TakeOrderDeliversTheHead : Prop :=
  ∀ s : State,
    (s.takesCommand .takeOrder = true → s.orders = [] → exec .takeOrder s =
        .next (s.respond .noOrder [0, 0, 0, 0, 0, 0, 0, 0] .nothing))
      ∧ (∀ o rest, s.takesCommand .takeOrder = true → s.orders = o :: rest → exec .takeOrder s =
          .next (State.respond .ok
            (be16 o.order.number ++ [o.order.epoch] ++ be24 o.order.t0
              ++ [addrByte o.order.opener, BitVec.ofNat 8 o.order.members]) .takeOrder
            { s with orders := { o with pending := true } :: rest }))
      ∧ (∀ o rest, s.endsIn .takeOrder = true → s.orders = o :: rest → o.pending = true →
          exec .takeOrderCommit s = .next (State.trail { s with orders := rest }))
      ∧ (s.endsIn .takeOrder = true → (∀ o ∈ s.orders, o.pending = false) →
          exec .takeOrderCommit s = .next s.trail)

/-- LIST_EVENTS copies every record, open ones first; STAGE_EVENT stages the payload and note of the record
named, or answers NOT_FOUND with the stage as it was; READ_STAGE answers by the first case that holds and
leaves the stage buffer alone (R165, R166, R167). That the status byte of STAGE_EVENT's own response shows
stage valid, as R159 and R162 load it and against step 5 of 9.7, is the model's choice (log 17). -/
def Obligations.EventsAreListedStagedAndRead : Prop :=
  (∀ s : State,
      (s.takesCommand .listEvents = true → exec .listEvents s =
          .next (s.respond .ok
            (BitVec.ofNat 8 (s.table.slots.length + s.table.history.length)
              :: (s.table.slots ++ s.table.history).flatMap
                  (fun r => be16 r.number ++ [r.stateByte])) .nothing))
        ∧ (∀ n, s.takesCommand (.stageEvent n) = true → (∀ r ∈ s.table.slots ++ s.table.history, r.number ≠ n) →
            exec (.stageEvent n) s = .next (s.respond .notFound [] .nothing))
        ∧ (∀ r ∈ s.table.slots ++ s.table.history, s.table.Law s.params.w.toNat →
            s.takesCommand (.stageEvent r.number) = true →
            exec (.stageEvent r.number) s =
              .next (State.respond .ok [BitVec.ofNat 8 (14 + 2 * r.members.length)] .nothing
                { s with stage := some (r.payload ++ [noteByte r.note]) })))
  ∧ (∀ (offset length : Byte) (s : State), s.takesCommand (.readStage offset length) = true →
      (s.stage = none → exec (.readStage offset length) s = .next (s.respond .noStage [] .nothing))
        ∧ (∀ bytes, s.stage = some bytes →
            exec (.readStage offset length) s =
              if length.toNat = 0 ∨ 48 < length.toNat then .next (s.respond .badRange [] .nothing)
              else if bytes.length < offset.toNat + length.toNat then
                .next (s.respond .badRange [] .nothing)
              else .next (s.respond .ok ((bytes.drop offset.toNat).take length.toNat) .nothing)))

/-- READ_STATUS copies the eighteen bytes of the extended status, READ_ROSTER the sixteen entries, the
own one read from the station; READ_COUNTERS answers a pair of arguments in range with the counters from
the first index on, and any other with BAD_RANGE (R97, R168, R169, R170, R178). -/
def Obligations.StatusRosterAndCountersAreRead : Prop :=
  (∀ s : State,
      (s.takesCommand .readStatus = true → exec .readStatus s =
          .next (s.respond .ok
            ([match s.requester.phase with
                | .none => 0#8 | .requesting _ => 1#8 | .receiving _ => 2#8 | .retryWait _ => 3#8,
              s.requester.attempt, BitVec.ofNat 8 s.requester.hold.length,
              BitVec.ofNat 8 s.tx.outbox.length, BitVec.ofNat 8 s.orders.length,
              BitVec.ofNat 8 s.table.slots.length, BitVec.ofNat 8 s.table.history.length,
              s.table.epoch]
              ++ be24 s.tick ++ be16 s.table.count ++ be16 s.table.digest
              ++ [s.table.overflow, s.table.stale, s.table.void]) .nothing))
        ∧ (s.takesCommand .readRoster = true → ∃ data, exec .readRoster s = .next (s.respond .ok data .nothing) ∧ data.length = 64
            ∧ (∀ a : Addr, a ≠ s.addr → (data.drop (4 * a.toNat)).take 4 = (s.roster.entry a).bytes)
            ∧ (data.drop (4 * s.addr.toNat)).take 4 =
                [(if s.armed then 0x20#8 else 0#8) ||| (if s.stepState = .inStep then 0x10#8 else 0#8)
                  ||| 0x01#8, 0#8] ++ be16 (s.tick.setWidth 16)))
  ∧ (∀ (first n : Byte) (s : State), s.takesCommand (.readCounters first n) = true →
      exec (.readCounters first n) s =
        if first.toNat ≤ 15 ∧ 1 ≤ n.toNat ∧ n.toNat ≤ 16 ∧ first.toNat + n.toNat ≤ 16 then
          .next (s.respond .ok
            ((List.range n.toNat).flatMap (fun i => be16 (s.counters.toList.getD (first.toNat + i) 0)))
            .nothing)
        else .next (s.respond .badRange [] .nothing))

/-- ACK_FLAGS copies the flags at the taking; the commit clears each flag that the mask names and the
copy showed set, and no other, and leaves attention and the counters (R173). -/
def Obligations.FlagsAreAcknowledged : Prop :=
  ∀ (mask copy : Half) (s : State),
    (s.takesCommand (.ackFlags mask) = true → exec (.ackFlags mask) s =
        .next (s.respond .ok (be16 (s.flags.setWidth 16)) (.ackFlags mask (s.flags.setWidth 16))))
      ∧ (s.inReset = false → s.port.txn = .response → s.port.commit = .ackFlags mask copy →
          s.port.statusOut = true →
          ∃ f : BitVec 9, exec .ackFlagsCommit s =
              .next { s with flags := f, port := { s.port with txn := .trailing, commit := .nothing } }
            ∧ ∀ i, i < 9 → f.getLsbD i = (s.flags.getLsbD i && !(mask.getLsbD i && copy.getLsbD i)))

/-- RESTART_STATION is answered by the step state, and its commit, not made in CONFLICT, restarts the
station: everything at the values of the table of chapter 7. A frame of its own on the line is cut with a
break (R51, R62, R146, R147). The recessive counts are kept (R52) but for that break, which begins both at 0;
their value after it is the model's choice (log 8). -/
def Obligations.RestartIsAnsweredAndCommitted : Prop :=
  ∀ s : State,
    (s.takesCommand .restartStation = true → exec .restartStation s =
        .next (match s.stepState with
          | .unconfigured => s.respond .notConfigured [] .nothing
          | .conflict     => s.respond .notAllowed [] .nothing
          | .listening | .inStep | .outOfStep | .mute => s.respond .ok [] .restart))
      ∧ (s.endsIn .restart = true → s.stepState = .conflict →
          exec .restartStationCommit s = .next s.trail)
      ∧ (s.endsIn .restart = true → s.stepState ≠ .conflict → s.port.statusOut = true →
          exec .restartStationCommit s =
            .next { s with
              armed := false, lastClaimed := none,
              tx := { outbox := [], deferred := [], onLine := none,
                      breaking := s.tx.breaking || s.tx.onLine.isSome, discards := 0,
                      yielding := false,
                      recessive := if s.tx.onLine.isSome then 0 else s.tx.recessive },
              rx := if s.tx.onLine.isSome then .waitIdle else s.rx,
              rxRecessive := if s.tx.onLine.isSome then 0 else s.rxRecessive,
              table := { count := 0, digest := s.fingerprint, next := 0, epoch := 0, overflow := 0,
                         stale := 0, void := 0, slots := [], history := [] },
              stepState := .listening,
              listeningEnd := some (s.tick + BitVec.ofNat 24 (4 * s.params.p.toNat + 64)),
              streak := 0, roster := Roster.blank, requester := Requester.idle,
              responder := Responder.idle, orders := [], stage := none, flags := 0,
              attention := false, counters := Counters.zero,
              port := { s.port with txn := .trailing, commit := .nothing } })

/-! ### Sending -/

/-- The Transmitter starts the head when its own count says that the line is idle, 24 recessive bit times
after a frame of its own and 12 otherwise, filling the header and the body's open fields at the start bit;
with fewer it does not start, and that such a command does nothing is the model's choice (log 4). The count
it tests is the one held, or the one the command shows where that is larger (R52, R54, R55, R57; log 8). -/
def Obligations.TransmissionStartsTheHead : Prop :=
  ∀ (n : Nat) (s : State) (e : Entry) (rest : List Entry), s.inReset = false → s.rx ≠ .receiving →
    s.tx.onLine = none → s.tx.breaking = false → s.tx.outbox = e :: rest →
    (s.stepState = .inStep ∨ (s.stepState = .outOfStep ∧ e.body.kind.ordered = false)) →
      (max s.tx.recessive n < (if s.tx.yielding then 24 else 12) → exec (.transmissionStart n) s = .next s)
        ∧ ((if s.tx.yielding then 24 else 12) ≤ max s.tx.recessive n → exec (.transmissionStart n) s =
            .next { s with
              tx := { s.tx with
                outbox := { e with sending := true } :: rest,
                onLine := some {
                  kind   := e.body.kind,
                  header := { sender := s.addr, inStep := decide (s.stepState = .inStep),
                              armed := s.armed, count := s.table.count, digest := s.table.digest },
                  body   := match e.body with
                    | .epoch              => []
                    | .clear              => be24 s.tick ++ [s.table.epoch]
                    | .close number       => be16 number
                    | .claim stamp epoch  => be24 stamp ++ [epoch]
                    | .state c            => c.bytes s.tick
                    | .stateReq fp k      => be16 fp ++ [k]
                    | .presence fp        => be16 fp },
                yielding := false, recessive := 0 },
              rx := .ready, rxRecessive := 0 })

/-- An arbitration loss leaves the entry in its place with its attempt count and makes the station a
receiver; a marked CLAIM is removed then and counted withdrawn (R56, R63, R72, R83). -/
def Obligations.ArbitrationLossKeepsTheEntry : Prop :=
  ∀ (s : State) (e : Entry), s.inReset = false → s.tx.onLine.isSome = true → s.tx.Law →
    e ∈ s.tx.outbox → e.sending = true →
      ∃ t, exec .arbitrationLoss s = .next t ∧ t.rx = .receiving ∧ t.tx.onLine = none
        ∧ t.counter .arbLosses = satAdd16 (s.counter .arbLosses) 1
        ∧ t.table = s.table ∧ t.stepState = s.stepState ∧ t.tx.discards = s.tx.discards
        ∧ t.tx.yielding = s.tx.yielding ∧ t.requester = s.requester ∧ t.responder = s.responder
        ∧ t.orders = s.orders ∧ t.flags = s.flags
        ∧ (e.mark = false → t.tx.outbox =
              s.tx.outbox.map (fun x => if x.sending then { x with sending := false } else x)
            ∧ t.counter .claimsWithdrawn = s.counter .claimsWithdrawn)
        ∧ (e.mark = true → s.tx.deferred = [] →
              t.tx.outbox = s.tx.outbox.filter (fun x => !x.sending)
            ∧ t.counter .claimsWithdrawn = satAdd16 (s.counter .claimsWithdrawn) 1)

/-- A bit error before the eighth drives a break and leaves the entry in its place with its attempt count
raised; a marked CLAIM is removed then and counted withdrawn (R51, R58, R63, R72, R83). -/
def Obligations.BitErrorIsRetried : Prop :=
  ∀ (s : State) (e : Entry), s.inReset = false → s.tx.onLine.isSome = true → s.tx.Law →
    e ∈ s.tx.outbox → e.sending = true → e.attempts < 7 →
      ∃ t, exec .bitError s = .next t ∧ t.rx = .waitIdle ∧ t.tx.breaking = true ∧ t.tx.onLine = none
        ∧ t.counter .txAborts = satAdd16 (s.counter .txAborts) 1
        ∧ (e.mark = false → t.tx.outbox = s.tx.outbox.map
              (fun x => if x.sending then { x with attempts := x.attempts + 1, sending := false } else x)
            ∧ t.counter .claimsWithdrawn = s.counter .claimsWithdrawn)
        ∧ (e.mark = true → e ∉ t.tx.outbox
            ∧ (∀ x ∈ t.tx.outbox, x ∈ s.tx.waiting ∨ ∃ b ∈ s.tx.deferred, x = Entry.fresh b)
            ∧ (s.tx.deferred = [] → t.tx.outbox = s.tx.waiting)
            ∧ t.counter .claimsWithdrawn = satAdd16 (s.counter .claimsWithdrawn) 1)
        ∧ t.counter .txDiscards = s.counter .txDiscards
        ∧ t.table = s.table ∧ t.stepState = s.stepState ∧ t.tx.discards = s.tx.discards
        ∧ t.requester = s.requester ∧ t.responder = s.responder ∧ t.orders = s.orders
        ∧ t.flags = s.flags

/-- The eighth bit error discards the entry and tells its block. A CLAIM, CLEAR or EPOCH is gone, and a
STATE with the service it belongs to; a CLOSE is queued afresh while its due stands reached, a STATE_REQ is
offered afresh with the same attempt number, and a PRESENCE is offered afresh while its tick stands reached
(R32, R59, R103, R109, R130). -/
def Obligations.EighthBitErrorDiscards : Prop :=
  ∀ (s : State) (e : Entry), s.inReset = false → s.tx.onLine.isSome = true → s.OutboxLaw → s.TableLaw →
    e ∈ s.tx.outbox → e.sending = true → e.attempts = 7 → s.tx.discards < 2 →
      ∃ t, exec .bitError s = .next t ∧ t.tx.breaking = true ∧ t.tx.onLine = none
        ∧ t.counter .txAborts = satAdd16 (s.counter .txAborts) 1
        ∧ t.counter .txDiscards = satAdd16 (s.counter .txDiscards) 1
        ∧ t.counter .claimsWithdrawn = s.counter .claimsWithdrawn
        ∧ t.tx.discards = s.tx.discards + 1 ∧ t.stepState = s.stepState ∧ t.table = s.table
        ∧ t.requester = s.requester ∧ t.lastClaimed = s.lastClaimed ∧ t.flags = s.flags
        ∧ (∀ x ∈ t.tx.outbox, x.sending = false) ∧ (∀ x ∈ s.tx.waiting, x ∈ t.tx.outbox)
        ∧ (e.body.kind = .clear ∨ e.body.kind = .epoch → t.tx.holds e.body.kind = false)
        ∧ (e.body.kind = .claim ∨ e.body.kind = .clear ∨ e.body.kind = .epoch ∨ e.body.kind = .state →
            s.tx.deferred = [] → t.tx.outbox = s.tx.waiting)
        ∧ (∀ r ∈ s.table.slots, e.body = .close r.number → s.stepState = .inStep →
            reachedOpt s.tick r.due = true → Entry.fresh (.close r.number) ∈ t.tx.outbox)
        ∧ (e.body.kind = .close → s.tx.deferred = [] → ∀ x ∈ t.tx.outbox, x ∈ s.tx.waiting
            ∨ ∃ r ∈ s.table.slots, reachedOpt s.tick r.due = true ∧ x = Entry.fresh (.close r.number))
        ∧ (e.body.kind = .stateReq → t.tx.Offers (.stateReq s.fingerprint s.requester.attempt)
            ∧ (s.tx.deferred = [] → t.tx.outbox =
                insertEntry (Entry.fresh (.stateReq s.fingerprint s.requester.attempt)) s.tx.waiting))
        ∧ (e.body.kind = .presence →
            (s.tick - (s.lastSent + BitVec.ofNat 24 s.params.p.toNat)).toNat ≤ 8388607 →
              t.tx.Offers (.presence s.fingerprint)
                ∧ (s.tx.deferred = [] → t.tx.outbox =
                    insertEntry (Entry.fresh (.presence s.fingerprint)) s.tx.waiting))
        ∧ (e.body.kind = .presence →
            8388607 < (s.tick - (s.lastSent + BitVec.ofNat 24 s.params.p.toNat)).toNat →
              t.tx.queued .presence = false ∧ (s.tx.deferred = [] → t.tx.outbox = s.tx.waiting))
        ∧ (e.body.kind ≠ .state → t.responder = s.responder)
        ∧ (e.body.kind = .state → t.tx.queued .state = false
            ∧ t.responder = (match s.responder.latch with
                | some a => { phase := .delay a (s.tick + BitVec.ofNat 24 (4 * (s.addr.toNat + 1))),
                              latch := none }
                | none   => Responder.idle))

/-- The third discard in a row puts the station in MUTE: MUTED set, every entry, offer and due gone, both
resync contexts abandoned without a failure counted (R60). -/
def Obligations.ThirdDiscardMutes : Prop :=
  ∀ (s : State) (e : Entry), s.inReset = false → s.tx.onLine.isSome = true → s.tx.Law →
    e ∈ s.tx.outbox → e.sending = true → e.attempts = 7 → s.tx.discards = 2 →
      ∃ t, exec .bitError s = .next t ∧ t.stepState = .mute ∧ t.hasFlag .muted = true
        ∧ (∀ f, f ≠ .muted → t.hasFlag f = s.hasFlag f)
        ∧ t.tx.outbox = [] ∧ t.tx.deferred = [] ∧ t.tx.discards = 0 ∧ t.tx.breaking = true
        ∧ t.counter .claimsWithdrawn = satAdd16 (s.counter .claimsWithdrawn)
            (s.tx.outbox.filter (fun x => x.body.isKind .claim && !x.sending)).length
        ∧ t.counter .resyncsFailed = s.counter .resyncsFailed
        ∧ (∀ r ∈ t.table.slots, r.due = none) ∧ t.table.shared = s.table.shared
        ∧ t.requester = Requester.idle ∧ t.responder = Responder.idle
        ∧ t.streak = s.streak ∧ t.orders = s.orders

/-- Deferred offers are admitted in kind order, one for each free general place (R71). A discarded frame is
counted once and reaches no other block; the Receiver's states follow the line: idle, start bit, the end of
the station's own break (R51, R52, R57, R63, R65). What the recessive counts hold after each row is the
model's choice (log 8): 12 at least at LINE_IDLE, 0 at the other three, whatever the fault. -/
def Obligations.DeferredOffersAndTheLine : Prop :=
  (∀ s : State, s.inReset = false → (∀ b ∈ s.tx.deferred, b.kind.general = true) →
      exec .deferredOfferAdmitted s = .next { s with tx := { s.tx with
        outbox := (s.tx.deferred.take (6 - generalCount s.tx.outbox)).foldl
          (fun es b => insertEntry { body := b, attempts := 0, sending := false, mark := false } es)
          s.tx.outbox,
        deferred := s.tx.deferred.drop (6 - generalCount s.tx.outbox) } })
  ∧ (∀ (fault : FrameFault) (s : State), s.inReset = false → s.tx.onLine = none →
      (s.rx = .receiving → exec (.frameDiscarded fault) s =
          .next { s.rise .rxBad 1 with
            rx := .waitIdle, rxRecessive := 0, tx := { s.tx with recessive := 0 } })
        ∧ (s.rx = .waitIdle → s.tx.breaking = false → exec .lineIdle s =
            .next { s with rx := .ready, rxRecessive := max s.rxRecessive 12,
                           tx := { s.tx with recessive := max s.tx.recessive 12 } })
        ∧ (s.rx = .ready → s.tx.breaking = false → exec .startBitTaken s =
            .next { s with rx := .receiving, rxRecessive := 0,
                           tx := { s.tx with yielding := false, recessive := 0 } })
        ∧ (s.tx.breaking = true → exec .breakEnd s =
            .next { s with tx := { s.tx with breaking := false, recessive := 0 }, rxRecessive := 0 }))

/-- The station's own CLAIM, CLOSE or EPOCH completes: the entry leaves the outbox and the others stay, but
for those the frame withdraws; the station yields, and the frame is applied with the own address as sender. A
CLAIM is counted sent and takes its one effect, and where it opens a record every due already reached has its
CLOSE queued at once; a CLOSE closes the open record with its number against Q and
offers the order of an accepted one, or is void; an EPOCH sets the counter to 0 and withdraws and counts every
CLAIM first, then drops every open record into history with cause EPOCH and the own address as closer
(R2, R21, R26, R31 to R37, R44 to R46, R57, R61, R85). -/
def Obligations.OwnOrderedFrameIsApplied : Prop :=
  ∀ (s : State) (e : Entry), s.inReset = false → s.tx.onLine.isSome = true → s.tx.Law →
    e ∈ s.tx.outbox → e.sending = true → s.applies = true →
      (∀ stamp epoch, e.body = .claim stamp epoch →
          ∃ t, exec .ownClaimCompletes s = .next t ∧ t.tx.onLine = none ∧ t.tx.discards = 0
            ∧ t.tx.yielding = true ∧ t.rx = .waitIdle ∧ t.lastSent = s.tick ∧ t.tick = s.tick
            ∧ (∀ x ∈ t.tx.outbox, x.sending = false) ∧ (∀ x ∈ s.tx.waiting, x ∈ t.tx.outbox)
            ∧ (s.tx.deferred = [] → ∀ x ∈ t.tx.outbox,
                x ∈ s.tx.waiting ∨ ∃ n, x = Entry.fresh (.close n))
            ∧ (s.tx.deferred = [] → t.table.slots.length = s.table.slots.length →
                t.tx.outbox = s.tx.waiting)
            ∧ t.counter .claimsSent = satAdd16 (s.counter .claimsSent) 1
            ∧ t.counter .framesApplied = satAdd16 (s.counter .framesApplied) 1
            ∧ t.table = Table.claim s.addr stamp (s.openingDue s.addr stamp)
                (s.table.advance (arbByte .claim s.addr :: (be24 stamp ++ [epoch])))
                (Table.claimEffect s.params.w.toNat s.addr stamp epoch
                  (s.table.advance (arbByte .claim s.addr :: (be24 stamp ++ [epoch]))))
            ∧ t.orders = s.orders ∧ t.flags = s.flags ∧ t.stepState = s.stepState
            ∧ t.requester = s.requester ∧ t.responder = s.responder ∧ t.stage = s.stage
            ∧ t.armed = s.armed ∧ t.lastClaimed = s.lastClaimed
            ∧ (s.stepState = .inStep → s.OutboxLaw → s.TableLaw →
                t.table.slots.length = s.table.slots.length + 1 → t.ReachedDuesQueued))
        ∧ (∀ n, e.body = .close n →
          ∃ t, exec .ownCloseCompletes s = .next t ∧ t.tx.onLine = none ∧ t.tx.discards = 0
            ∧ t.tx.yielding = true ∧ t.rx = .waitIdle ∧ t.lastSent = s.tick ∧ t.tick = s.tick
            ∧ t.counter .framesApplied = satAdd16 (s.counter .framesApplied) 1
            ∧ t.table.count = s.table.count + 1
            ∧ t.table.digest = crc16 s.table.digest (arbByte .close s.addr :: be16 n)
            ∧ (∀ x ∈ t.tx.outbox, x.sending = false ∧ x.body ≠ .close n)
            ∧ (s.tx.deferred = [] → t.tx.outbox = s.tx.waiting.filter (fun x => x.body != .close n))
            ∧ t.table.next = s.table.next ∧ t.table.epoch = s.table.epoch
            ∧ t.stepState = s.stepState ∧ t.requester = s.requester ∧ t.responder = s.responder
            ∧ t.stage = s.stage ∧ t.armed = s.armed
            ∧ ((∀ r ∈ s.table.slots, r.number ≠ n) →
                t.table.slots = s.table.slots ∧ t.table.history = s.table.history
                  ∧ t.table.void = satAdd8 s.table.void 1 ∧ t.orders = s.orders ∧ t.flags = s.flags)
            ∧ ∀ a r b, s.table.slots = a ++ r :: b → (∀ x ∈ a, x.number ≠ n) → r.number = n →
                t.table.slots = a ++ b ∧ t.table.void = s.table.void
                  ∧ t.table.history = (if s.table.history.length < 16 then s.table.history
                      else s.table.history.drop 1) ++
                      [{ r with
                          state   := if s.params.q.toNat ≤ r.members.length then .accepted else .dropped,
                          closing := some { cause := if r.opener = s.addr then .opener else .standIn,
                                            closer := s.addr },
                          due     := none,
                          note    := some (if s.params.q.toNat ≤ r.members.length
                                           then (s.orderAnswer n).note else .noOrder) }]
                  ∧ ∀ o : State, o = (if s.params.q.toNat ≤ r.members.length then
                        s.offerOrder { number := n, epoch := r.epoch, t0 := r.t0, opener := r.opener,
                                       members := r.members.length } else s) →
                      t.orders = o.orders ∧ t.flags = o.flags
                        ∧ t.counter .ordersIssued = o.counter .ordersIssued
                        ∧ t.counter .ordersMissed = o.counter .ordersMissed)
        ∧ (e.body = .epoch →
          ∃ t, exec .ownEpochCompletes s = .next t ∧ t.tx.onLine = none ∧ t.tx.discards = 0
            ∧ t.tx.yielding = true ∧ t.rx = .waitIdle ∧ t.lastSent = 0 ∧ t.tick = 0
            ∧ t.lastClaimed = none
            ∧ t.counter .framesApplied = satAdd16 (s.counter .framesApplied) 1
            ∧ t.table.count = s.table.count + 1
            ∧ t.table.digest = crc16 s.table.digest [arbByte .epoch s.addr]
            ∧ t.counter .claimsWithdrawn = satAdd16 (s.counter .claimsWithdrawn)
                (s.tx.outbox.filter (fun x => x.body.isKind .claim)).length
            ∧ t.table.epoch = s.table.epoch + 1 ∧ t.table.slots = [] ∧ t.table.next = s.table.next
            ∧ t.table.history = s.table.slots.foldl
                (fun hist r => (if hist.length < 16 then hist else hist.drop 1) ++
                  [{ r with state := .dropped, closing := some { cause := .epoch, closer := s.addr },
                            due := none, note := some .noOrder }]) s.table.history
            ∧ t.table.overflow = s.table.overflow ∧ t.table.stale = s.table.stale
            ∧ t.table.void = s.table.void
            ∧ (∀ x ∈ t.tx.outbox, x.sending = false ∧ x.body.isKind .claim = false
                ∧ x.body.isKind .close = false ∧ x.body.isKind .epoch = false)
            ∧ (s.tx.deferred = [] → t.tx.outbox = s.tx.waiting.filter
                (fun x => !x.body.isKind .claim && !x.body.isKind .close))
            ∧ t.orders = s.orders ∧ t.streak = s.streak ∧ t.flags = s.flags ∧ t.stepState = s.stepState
            ∧ t.responder = { s.responder with phase := s.responder.phase.rebase s.tick 0 }
            ∧ t.stage = s.stage ∧ t.armed = s.armed)

/-- The station's own CLEAR completes, its entry leaves the outbox, and it clears the station as a peer's
would (R39, R40, R43, R61). -/
def Obligations.OwnClearIsApplied : Prop :=
  ∀ (s : State) (e : Entry), s.inReset = false → s.tx.onLine.isSome = true → s.tx.Law →
    e ∈ s.tx.outbox → e.sending = true → e.body = .clear → s.applies = true →
      ∃ t, exec .ownClearCompletes s = .next t ∧ t.tx.onLine = none ∧ t.tx.discards = 0
        ∧ t.tx.yielding = true ∧ t.rx = .waitIdle ∧ t.lastSent = s.tick ∧ t.tick = s.tick
        ∧ t.stepState = s.stepState
        ∧ t.counter .framesApplied = satAdd16 (s.counter .framesApplied) 1
        ∧ t.table = { count := 0, digest := s.fingerprint, next := 0, epoch := s.table.epoch,
                      overflow := 0, stale := 0, void := 0, slots := [], history := [] }
        ∧ t.orders = [] ∧ t.hasFlag .ordersFlushed = (s.hasFlag .ordersFlushed || !s.orders.isEmpty)
        ∧ t.streak = 0 ∧ t.responder = Responder.idle
        ∧ (∀ x ∈ t.tx.outbox, x.sending = false ∧ x.body.isKind .close = false
            ∧ x.body.isKind .state = false ∧ x.body.isKind .clear = false)
        ∧ (s.tx.deferred = [] → t.tx.outbox = s.tx.waiting.filter
            (fun x => !x.body.isKind .close && !x.body.isKind .state))

/-- The station's own STATE, STATE_REQ or PRESENCE completes and its entry leaves the outbox: the responder
offers the next chunk of its buffer, a record, or ends the service and takes its latch; the request is sent
and collection starts, with the deadline 96 ticks on; a PRESENCE counts as a completed transmission only
(R61, R103, R104, R108, R129). -/
def Obligations.OwnSideFrameCompletes : Prop :=
  ∀ (s : State) (e : Entry), s.inReset = false → s.tx.onLine.isSome = true → s.OutboxLaw →
    e ∈ s.tx.outbox → e.sending = true →
      (e.body.kind = .state → ∀ tg b total next sent,
          s.responder.phase = .sending tg b total next sent →
          ∃ t, exec .ownStateCompletes s = .next t ∧ t.tx.yielding = true ∧ t.tx.discards = 0
            ∧ t.lastSent = s.tick ∧ t.rx = .waitIdle ∧ t.table = s.table
            ∧ (∀ x ∈ t.tx.outbox, x.sending = false) ∧ (∀ x ∈ s.tx.waiting, x ∈ t.tx.outbox)
            ∧ (next + 1 < total → t.tx.Offers (.state (b.chunk tg total (next + 1)))
                ∧ (∀ r, b.records[next]? = some r → b.chunk tg total (next + 1) =
                    { target := tg, index := next + 1, total := total, payload := .record r })
                ∧ (s.tx.deferred = [] → t.tx.outbox =
                    insertEntry (Entry.fresh (.state (b.chunk tg total (next + 1)))) s.tx.waiting)
                ∧ t.responder = { phase := .sending tg b total (next + 1) (sent || next == 0),
                                  latch := s.responder.latch })
            ∧ (total ≤ next + 1 → t.tx.queued .state = false
                ∧ (s.tx.deferred = [] → t.tx.outbox = s.tx.waiting)
                ∧ t.responder = (match s.responder.latch with
                    | some a => { phase := .delay a
                                    (s.tick + BitVec.ofNat 24 (4 * (s.addr.toNat + 1))), latch := none }
                    | none   => Responder.idle)))
        ∧ (e.body.kind = .stateReq → ∀ d, s.requester.phase = .requesting d →
          ∃ t, exec .ownStateReqCompletes s = .next t ∧ t.tx.yielding = true ∧ t.tx.discards = 0
            ∧ t.lastSent = s.tick ∧ t.rx = .waitIdle ∧ t.table = s.table
            ∧ t.tx.queued .stateReq = false ∧ (s.tx.deferred = [] → t.tx.outbox = s.tx.waiting)
            ∧ t.requester = { s.requester with phase := .requesting (some (s.tick + 96)), hold := [] })
        ∧ (e.body.kind = .presence →
          ∃ t, exec .ownPresenceCompletes s = .next t ∧ t.tx.yielding = true ∧ t.tx.discards = 0
            ∧ t.lastSent = s.tick ∧ t.rx = .waitIdle ∧ t.table = s.table
            ∧ t.tx.queued .presence = false ∧ (s.tx.deferred = [] → t.tx.outbox = s.tx.waiting)
            ∧ t.requester = s.requester ∧ t.responder = s.responder ∧ t.counters = s.counters
            ∧ t.flags = s.flags)

/-! ### The agreement table -/

/-- A claim meets the first of the five tests that holds and touches one record at most
(R13, R14, R23 to R27). -/
def Obligations.ClaimMeetsTheFirstOfFiveTests : Prop :=
  ∀ (w : Nat) (sender : Addr) (stamp : Tick) (epoch : Byte) (due : Option Tick) (t : Table)
    (near : EventRecord → Prop),
    (∀ r, near r ↔ r.epoch = t.epoch
      ∧ ((stamp - r.t0).toNat ≤ w ∨ (r.t0 - stamp).toNat ≤ w)) →
    (epoch ≠ t.epoch →
        t.claim sender stamp due (t.claimEffect w sender stamp epoch)
          = { t with stale := satAdd8 t.stale 1 })
      ∧ (∀ a r b, epoch = t.epoch → t.slots = a ++ r :: b → (∀ x ∈ a, ¬near x) → near r →
          t.claim sender stamp due (t.claimEffect w sender stamp epoch)
            = { t with slots := a ++
                (if sender ∈ r.members.map Member.addr then { r with repeats := satAdd8 r.repeats 1 }
                 else { r with members := r.members ++ [⟨sender, offsetOf w stamp r.t0⟩] }) :: b })
      ∧ (∀ a r b, epoch = t.epoch → (∀ x ∈ t.slots, ¬near x) → t.history = a ++ r :: b →
          (∀ x ∈ a, ¬near x) → near r →
          t.claim sender stamp due (t.claimEffect w sender stamp epoch)
            = { t with history := a ++
                (if sender ∈ r.members.map Member.addr then { r with repeats := satAdd8 r.repeats 1 }
                 else { r with late := r.late ||| (1#16 <<< sender.toNat) }) :: b })
      ∧ (epoch = t.epoch → (∀ x ∈ t.slots ++ t.history, ¬near x) → t.slots.length < 4 →
          t.claim sender stamp due (t.claimEffect w sender stamp epoch)
            = { t with
                slots := t.slots ++ [openedRecord t.nextNumber t.epoch stamp sender due],
                next  := t.nextNumber + 1 })
      ∧ (∀ number e, openedRecord number e stamp sender due =
          { number := number, epoch := e, t0 := stamp, opener := sender, state := .opened,
            closing := none, members := [⟨sender, 0⟩], repeats := 0, late := 0, due := due,
            note := none })
      ∧ (epoch = t.epoch → (∀ x ∈ t.slots ++ t.history, ¬near x) → 4 ≤ t.slots.length →
          t.claim sender stamp due (t.claimEffect w sender stamp epoch)
            = { t with overflow := satAdd8 t.overflow 1 })

/-- The number a record opens with is the first from the next event number on that no record of the table
holds, found within 21 numbers (R20); a member's offset is the signed difference of its stamp from T0 the
short way round (R12); the due of an open record is T0 + W + G at its opener and T0 + W + (a + 2) × G at
any other address a (R30). -/
def Obligations.NumbersOffsetsAndDuesAreComputed : Prop :=
  (∀ t : Table, t.slots.length ≤ 4 → t.history.length ≤ 16 →
      (∀ r ∈ t.slots ++ t.history, r.number ≠ t.nextNumber)
        ∧ ∃ k : Nat, k ≤ 20 ∧ t.nextNumber = t.next + BitVec.ofNat 16 k
            ∧ ∀ j, j < k → ∃ r ∈ t.slots ++ t.history, r.number = t.next + BitVec.ofNat 16 j)
  ∧ (∀ (w : Nat) (stamp t0 : Tick), w ≤ 127 →
      ((stamp - t0).toNat ≤ w → (offsetOf w stamp t0).toInt = ((stamp - t0).toNat : Int))
        ∧ (1 ≤ (t0 - stamp).toNat → (t0 - stamp).toNat ≤ w →
            (offsetOf w stamp t0).toInt = -((t0 - stamp).toNat : Int)))
  ∧ (∀ (p : Params) (own opener : Addr) (t0 : Tick),
      (closeDue p own own t0).toNat = (t0.toNat + p.w.toNat + p.g.toNat) % 2 ^ 24
        ∧ (opener ≠ own → (closeDue p own opener t0).toNat
            = (t0.toNat + p.w.toNat + (own.toNat + 2) * p.g.toNat) % 2 ^ 24))

/-- The Order Queue answers an offer by the first of four cases that holds: disarmed, same number, full,
room (R151, R152). -/
def Obligations.OffersAreAnswered : Prop :=
  ∀ (o : Order) (s : State),
    (s.armed = false → s.offerOrder o = s ∧ (s.orderAnswer o.number).note = .disarmed)
      ∧ (∀ a q b, s.armed = true → s.orders = a ++ q :: b → q.order.number = o.number →
          (∀ x ∈ a ++ b, x.order.number ≠ o.number) →
          s.offerOrder o = State.setFlag .ordersFlushed
              { s.rise .ordersIssued 1 with orders := a ++ b ++ [{ order := o, pending := false }] }
            ∧ (s.orderAnswer o.number).note = .ordered)
      ∧ (s.armed = true → (∀ x ∈ s.orders, x.order.number ≠ o.number) → 8 ≤ s.orders.length →
          s.offerOrder o = (s.rise .ordersMissed 1).setFlag .orderMissed
            ∧ (s.orderAnswer o.number).note = .missed)
      ∧ (s.armed = true → (∀ x ∈ s.orders, x.order.number ≠ o.number) → s.orders.length < 8 →
          s.offerOrder o =
              { s.rise .ordersIssued 1 with orders := s.orders ++ [{ order := o, pending := false }] }
            ∧ (s.orderAnswer o.number).note = .ordered)

/-! ### Accepted frames -/

/-- A CLAIM accepted at a station that applies it advances the count and the digest and takes its one
effect; the sender, not the vote, decides. Where it opens a record at an IN_STEP station, every due already
reached has its CLOSE queued at once. The sender's entry records the frame, and the own address as sender sets
ADDRESS_CLASH (R1, R21, R22, R26, R28, R31, R32, R66, R67, R98). -/
def Obligations.AcceptedClaimIsApplied : Prop :=
  ∀ (h : Header) (stamp : Tick) (epoch : Byte) (s : State), s.receives = true → s.KeepsStep h →
    ∃ t, exec (.claimAccepted h stamp epoch) s = .next t ∧ t.rx = .waitIdle
      ∧ t.stepState = s.stepState
      ∧ t.counter .framesApplied = satAdd16 (s.counter .framesApplied) 1
      ∧ t.table = Table.claim h.sender stamp (s.openingDue h.sender stamp)
          (s.table.advance (arbByte .claim h.sender :: (be24 stamp ++ [epoch])))
          (Table.claimEffect s.params.w.toNat h.sender stamp epoch
            (s.table.advance (arbByte .claim h.sender :: (be24 stamp ++ [epoch]))))
      ∧ t.table.count = s.table.count + 1
      ∧ t.table.digest = crc16 s.table.digest (arbByte .claim h.sender :: (be24 stamp ++ [epoch]))
      ∧ t.tick = s.tick ∧ t.orders = s.orders ∧ t.requester = s.requester
      ∧ t.responder = s.responder ∧ t.stage = s.stage ∧ t.armed = s.armed
      ∧ t.lastClaimed = s.lastClaimed ∧ t.lastSent = s.lastSent ∧ t.params = s.params
      ∧ (t.table.slots.length = s.table.slots.length → t.tx.outbox = s.tx.outbox)
      ∧ (s.stepState = .inStep → s.OutboxLaw → s.TableLaw →
          t.table.slots.length = s.table.slots.length + 1 → t.ReachedDuesQueued
            ∧ (∀ x ∈ s.tx.outbox, x ∈ t.tx.outbox)
            ∧ ∀ x ∈ t.tx.outbox, x ∈ s.tx.outbox ∨ ∃ r ∈ t.table.slots,
                reachedOpt t.tick r.due = true ∧ x = Entry.fresh (.close r.number))
      ∧ s.RecordedPlain h t

/-- A CLOSE accepted at a station that applies it closes the open record with its number against Q, or is
void; in both cases no CLOSE entry for the number is left. The sender's entry records the frame, and the own address
as sender sets ADDRESS_CLASH (R33 to R37, R67, R98). -/
def Obligations.AcceptedCloseIsApplied : Prop :=
  ∀ (h : Header) (n : Half) (s : State), s.receives = true → s.KeepsStep h → s.tx.Law →
    ∃ t, exec (.closeAccepted h n) s = .next t ∧ t.rx = .waitIdle ∧ t.stepState = s.stepState
      ∧ t.counter .framesApplied = satAdd16 (s.counter .framesApplied) 1
      ∧ t.table.count = s.table.count + 1
      ∧ t.table.digest = crc16 s.table.digest (arbByte .close h.sender :: be16 n)
      ∧ t.table.next = s.table.next ∧ t.table.epoch = s.table.epoch
      ∧ (∀ x ∈ t.tx.outbox, x.body ≠ .close n) ∧ t.tick = s.tick ∧ t.requester = s.requester
      ∧ t.responder = s.responder ∧ t.stage = s.stage ∧ t.armed = s.armed ∧ s.RecordedPlain h t
      ∧ ((∀ r ∈ s.table.slots, r.number ≠ n) →
          t.table.slots = s.table.slots ∧ t.table.history = s.table.history
            ∧ t.table.void = satAdd8 s.table.void 1 ∧ t.orders = s.orders)
      ∧ (∀ a r b, s.table.slots = a ++ r :: b → (∀ x ∈ a, x.number ≠ n) → r.number = n →
          t.table.slots = a ++ b ∧ t.table.void = s.table.void
            ∧ t.table.history = (if s.table.history.length < 16 then s.table.history
                else s.table.history.drop 1) ++
                [{ r with
                    state   := if s.params.q.toNat ≤ r.members.length then .accepted else .dropped,
                    closing := some { cause := if r.opener = h.sender then .opener else .standIn,
                                      closer := h.sender },
                    due     := none,
                    note    := some (if s.params.q.toNat ≤ r.members.length
                                     then (s.orderAnswer n).note else .noOrder) }]
            ∧ ∀ o : State, o = (if s.params.q.toNat ≤ r.members.length then
                  s.offerOrder { number := n, epoch := r.epoch, t0 := r.t0, opener := r.opener,
                                 members := r.members.length } else s) →
                t.orders = o.orders ∧ t.counter .ordersIssued = o.counter .ordersIssued
                  ∧ t.counter .ordersMissed = o.counter .ordersMissed)

/-- A CLEAR accepted in IN_STEP or MUTE empties the table and keeps the epoch, flushes the Order Queue,
empties the streak and abandons the responder; one that finds the station OUT_OF_STEP, by its vote or as the
end of its listening period too, also abandons the resync, takes the tick and the epoch carried and returns
the station to IN_STEP. The sender's entry records the frame, and the own address as sender sets ADDRESS_CLASH
(R39, R40, R41, R42, R67, R93, R98, R142, R156). -/
def Obligations.AcceptedClearIsApplied : Prop :=
  ∀ (h : Header) (tick : Tick) (epoch : Byte) (s : State), s.receives = true → s.PhaseLaw →
    s.OutboxLaw → (s.KeepsStep h ∨ s.Rejoins h) →
      ∃ t, exec (.clearAccepted h tick epoch) s = .next t ∧ t.rx = .waitIdle
        ∧ t.counter .framesApplied = satAdd16 (s.counter .framesApplied) 1
        ∧ t.table = { count := 0, digest := s.fingerprint, next := 0,
                      epoch := if s.Rejoins h then epoch else s.table.epoch,
                      overflow := 0, stale := 0, void := 0, slots := [], history := [] }
        ∧ t.stepState = (if s.Rejoins h then .inStep else s.stepState)
        ∧ t.tick = (if s.Rejoins h then tick + 1 else s.tick)
        ∧ t.lastClaimed = (if s.Rejoins h then none else s.lastClaimed)
        ∧ t.requester = Requester.idle ∧ t.listeningEnd = none ∧ s.RecordedPlain h t
        ∧ t.orders = [] ∧ t.hasFlag .ordersFlushed = (s.hasFlag .ordersFlushed || !s.orders.isEmpty)
        ∧ (¬s.LeavesStep h → t.hasFlag .leftStep = s.hasFlag .leftStep)
        ∧ (s.LeavesStep h → t.hasFlag .leftStep = true)
        ∧ t.streak = 0 ∧ t.responder = Responder.idle ∧ t.stage = s.stage ∧ t.armed = s.armed
        ∧ t.counter .resyncsDone = s.counter .resyncsDone
        ∧ t.counter .resyncsFailed = s.counter .resyncsFailed
        ∧ (∀ x ∈ t.tx.outbox, x.body.isKind .close = false ∧ x.body.isKind .state = false
            ∧ x.body.isKind .stateReq = false)

/-- An EPOCH sets the counter to 0 and withdraws every CLAIM at its arrival; applied, it advances the
epoch and drops every open record into history. It keeps the Order Queue, the streak but for the vote on the
frame, and the responder's work: an answer delay runs on with the ticks that remained to it, and a snapshot
being sent goes on from its buffer. The sender's entry records the frame, and the own address as sender sets
ADDRESS_CLASH (R44, R45, R46, R67, R75, R78, R98, R115). -/
def Obligations.AcceptedEpochIsApplied : Prop :=
  ∀ (h : Header) (s : State), s.receives = true → s.KeepsStep h → s.tx.Law →
    ∃ t, exec (.epochAccepted h) s = .next t ∧ t.rx = .waitIdle ∧ t.stepState = s.stepState
      ∧ t.tick = 0 ∧ t.lastClaimed = none ∧ t.lastSent = 0
      ∧ t.counter .framesApplied = satAdd16 (s.counter .framesApplied) 1
      ∧ t.counter .claimsWithdrawn = satAdd16 (s.counter .claimsWithdrawn)
          (s.tx.outbox.filter (fun x => x.body.isKind .claim)).length
      ∧ (∀ x ∈ t.tx.outbox, x.body.isKind .claim = false ∧ x.body.isKind .close = false)
      ∧ t.table.count = s.table.count + 1
      ∧ t.table.digest = crc16 s.table.digest [arbByte .epoch h.sender]
      ∧ t.table.epoch = s.table.epoch + 1 ∧ t.table.next = s.table.next ∧ t.table.slots = []
      ∧ t.table.history = s.table.slots.foldl
          (fun hist r => (if hist.length < 16 then hist else hist.drop 1) ++
            [{ r with state := .dropped, closing := some { cause := .epoch, closer := h.sender },
                      due := none, note := some .noOrder }]) s.table.history
      ∧ t.table.overflow = s.table.overflow ∧ t.table.stale = s.table.stale
      ∧ t.table.void = s.table.void ∧ t.orders = s.orders
      ∧ t.responder = { s.responder with phase := s.responder.phase.rebase s.tick 0 }
      ∧ (∀ tg e, s.responder.phase = .delay tg e → t.responder.phase = .delay tg (e - s.tick))
      ∧ (∀ tg b n i q, s.responder.phase = .sending tg b n i q → t.responder = s.responder)
      ∧ (∀ x ∈ s.tx.outbox, x.body.isKind .state = true → x ∈ t.tx.outbox)
      ∧ t.streak = (if h.inStep = false ∨ (s.roster.entry h.sender).mismatched = true then s.streak
          else if h.count = s.table.count ∧ h.digest = s.table.digest then 0
          else if addrCount (addAddr s.streak h.sender) < s.params.v.toNat then addAddr s.streak h.sender
          else 0)
      ∧ t.stage = s.stage ∧ t.armed = s.armed ∧ s.RecordedPlain h t

/-- A station that only listens records an accepted frame in the sender's entry and touches no table, no
board counter and no context by it; an EPOCH that reaches it in LISTENING or CONFLICT sets its tick counter
to 0, the listening end keeping the ticks that remained to it (R1, R42, R44, R47, R98, R139, R140). -/
def Obligations.ListenersOnlyRecord : Prop :=
  ∀ (c : Instr) (h : Header) (s : State), s.receives = true → s.PhaseLaw → s.OutboxLaw →
    s.OnlyListens h →
    ((∃ st ep, c = .claimAccepted h st ep) ∨ (∃ n, c = .closeAccepted h n)
      ∨ (∃ tk ep, c = .clearAccepted h tk ep) ∨ c = .epochAccepted h
      ∨ (∃ body, c = .stateAccepted h body ∧ c.wf = true)
      ∨ (∃ fp k, c = .stateReqAccepted h fp k) ∨ ∃ fp, c = .presenceAccepted h fp) →
      ∃ t, exec c s = .next t ∧ t.rx = .waitIdle ∧ t.stepState = s.stepState ∧ t.table = s.table
        ∧ t.counters = s.counters ∧ t.requester = s.requester ∧ t.responder = s.responder
        ∧ t.tx.outbox = [] ∧ t.orders = s.orders ∧ t.streak = s.streak
        ∧ (c ≠ .epochAccepted h ∨ s.stepState = .unconfigured → t.tick = s.tick
            ∧ t.lastClaimed = s.lastClaimed ∧ t.listeningEnd = s.listeningEnd ∧ t.lastSent = s.lastSent)
        ∧ (c = .epochAccepted h → s.stepState ≠ .unconfigured → t.tick = 0 ∧ t.lastClaimed = none
            ∧ t.listeningEnd = s.listeningEnd.map (fun e => e - s.tick) ∧ t.lastSent = 0)
        ∧ t.hasFlag .addressClash = (s.hasFlag .addressClash || h.sender == s.addr)
        ∧ (h.sender = s.addr → (t.roster.entry s.addr).presence = (s.roster.entry s.addr).presence
            ∧ (t.roster.entry s.addr).inStep = (s.roster.entry s.addr).inStep
            ∧ (t.roster.entry s.addr).armed = (s.roster.entry s.addr).armed)
        ∧ (h.sender ≠ s.addr → (t.roster.entry h.sender).inStep = h.inStep
            ∧ (t.roster.entry h.sender).armed = h.armed ∧ (t.roster.entry h.sender).heard = t.tick
            ∧ (t.roster.entry h.sender).presence =
                (if (s.roster.entry h.sender).presence = .absent then .present
                 else (s.roster.entry h.sender).presence))

/-- A frame with its in-step flag set ends the listening period: the station joins, OUT_OF_STEP with its
first STATE_REQ queued, and the frame is recorded and not applied; an EPOCH sets the tick counter to 0 as it
arrives (R44, R67, R94, R98, R99, R107, R141, R142). -/
def Obligations.InStepFrameEndsListening : Prop :=
  ∀ (c : Instr) (h : Header) (s : State), s.receives = true → s.PhaseLaw → s.OutboxLaw →
    s.stepState = .listening → h.inStep = true →
    ((∃ st ep, c = .claimAccepted h st ep) ∨ (∃ n, c = .closeAccepted h n) ∨ c = .epochAccepted h
      ∨ (∃ body, c = .stateAccepted h body ∧ c.wf = true)
      ∨ (∃ fp k, c = .stateReqAccepted h fp k) ∨ ∃ fp, c = .presenceAccepted h fp) →
      ∃ t, exec c s = .next t ∧ t.stepState = .outOfStep ∧ t.listeningEnd = none
        ∧ t.lastSent = t.tick ∧ t.tick = (if c = .epochAccepted h then 0 else s.tick)
        ∧ t.lastClaimed = (if c = .epochAccepted h then none else s.lastClaimed)
        ∧ t.requester = { phase := .requesting none, attempt := 1, unanswered := 0, hold := [] }
        ∧ t.tx.outbox = [Entry.fresh (.stateReq s.fingerprint 1)]
        ∧ t.hasFlag .leftStep = s.hasFlag .leftStep ∧ t.table.shared = s.table.shared
        ∧ t.counter .framesApplied = s.counter .framesApplied
        ∧ (∀ fp k, c = .stateReqAccepted h fp k → s.RecordedTested h fp t)
        ∧ (∀ fp, c = .presenceAccepted h fp → s.RecordedTested h fp t)
        ∧ ((∀ fp k, c ≠ .stateReqAccepted h fp k) → (∀ fp, c ≠ .presenceAccepted h fp) →
            s.RecordedPlain h t)

/-- At an OUT_OF_STEP station a CLAIM, CLOSE or EPOCH is held with its carried count while collection
runs, a seventeenth fails the attempt, and otherwise the frame is dropped; none is applied. An EPOCH sets
the tick counter to 0 in every case, the requester's deadline keeping the ticks that remained to it. The
sender's entry records the frame, and the own address as sender sets ADDRESS_CLASH
(R44, R47, R67, R98, R110, R111, R115, R122). -/
def Obligations.OutOfStepFramesAreHeld : Prop :=
  ∀ (c : Instr) (h : Header) (body : Sequenced) (s : State), s.receives = true →
    s.stepState = .outOfStep →
    ((∃ st ep, c = .claimAccepted h st ep ∧ body = .claim st ep)
      ∨ (∃ n, c = .closeAccepted h n ∧ body = .close n) ∨ (c = .epochAccepted h ∧ body = .epoch)) →
      ∃ t, exec c s = .next t ∧ t.counter .framesApplied = s.counter .framesApplied
        ∧ t.tick = (if c = .epochAccepted h then 0 else s.tick) ∧ s.RecordedPlain h t
        ∧ t.lastClaimed = (if c = .epochAccepted h then none else s.lastClaimed)
        ∧ (s.requester.collecting = false ∨ s.requester.hold.length < 16 → t.requester.phase =
            (if c = .epochAccepted h then s.requester.phase.rebase s.tick 0 else s.requester.phase))
        ∧ (s.requester.collecting = false → t.requester.hold = s.requester.hold
            ∧ t.stepState = .outOfStep ∧ t.table = s.table
            ∧ t.counter .resyncsFailed = s.counter .resyncsFailed)
        ∧ (s.requester.collecting = true → s.requester.hold.length < 16 →
            t.requester.hold = s.requester.hold ++ [{ sender := h.sender, body := body, count := h.count }]
            ∧ t.requester.attempt = s.requester.attempt ∧ t.stepState = .outOfStep
            ∧ t.table = s.table ∧ t.counter .resyncsFailed = s.counter .resyncsFailed)
        ∧ (s.requester.collecting = true → 16 ≤ s.requester.hold.length →
            t.requester = { phase := .requesting none, attempt := satAdd8 s.requester.attempt 1,
                            unanswered := 0, hold := [] }
            ∧ t.stepState = .outOfStep ∧ t.table = s.table
            ∧ t.counter .resyncsFailed = satAdd16 (s.counter .resyncsFailed) 1)

/-- A vote that brings the streak to V takes the station out of step within the acceptance: LEFT_STEP
set, ordered entries and dues gone, the responder abandoned, the requester opened; the frame is recorded and
neither applied nor held (R1, R67, R91, R93, R98). -/
def Obligations.ThresholdTakesTheStationOutOfStep : Prop :=
  ∀ (c : Instr) (h : Header) (s : State), s.receives = true → s.PhaseLaw → s.OutboxLaw →
    s.LeavesStep h →
    ((∃ st ep, c = .claimAccepted h st ep) ∨ (∃ n, c = .closeAccepted h n) ∨ c = .epochAccepted h
      ∨ (∃ body, c = .stateAccepted h body ∧ c.wf = true)
      ∨ (∃ k, c = .stateReqAccepted h s.fingerprint k) ∨ c = .presenceAccepted h s.fingerprint) →
      ∃ t, exec c s = .next t ∧ t.stepState = .outOfStep ∧ t.hasFlag .leftStep = true
        ∧ t.streak = 0 ∧ t.responder = Responder.idle
        ∧ t.requester = { phase := .requesting none, attempt := 1, unanswered := 0, hold := [] }
        ∧ Entry.fresh (.stateReq s.fingerprint 1) ∈ t.tx.outbox
        ∧ (∀ x ∈ t.tx.outbox, x.body.kind.ordered = false ∧ x.body.isKind .state = false)
        ∧ t.counter .claimsWithdrawn = satAdd16 (s.counter .claimsWithdrawn)
            (s.tx.outbox.filter (fun x => x.body.isKind .claim)).length
        ∧ t.counter .disagreements = satAdd16 (s.counter .disagreements) 1
        ∧ t.counter .framesApplied = s.counter .framesApplied
        ∧ t.table.shared = s.table.shared ∧ (∀ r ∈ t.table.slots, r.due = none)
        ∧ t.orders = s.orders ∧ t.armed = s.armed ∧ s.RecordedPlain h t
        ∧ (c ≠ .epochAccepted h → t.lastClaimed = s.lastClaimed ∧ t.tick = s.tick)
        ∧ (c = .epochAccepted h → t.lastClaimed = none ∧ t.tick = 0)

/-- The vote on a frame of any of the seven kinds: an agreement marks the peers of the streak SUSPECT, empties
it and restores the sender, and changes no count; a disagreement counts in DISAGREEMENTS and in the sender's
entry, marks nobody, and below V adds the sender to the streak, which a CLEAR, applied after the vote, empties
again; the threshold at a MUTE station sets DIVERGED and empties it. A PRESENCE has no effect beside
(R40, R88 to R92, R96, R104). -/
def Obligations.VotesMarkAndCount : Prop :=
  ∀ (c : Instr) (h : Header) (s : State), s.receives = true → s.VotesOn h c →
    ((h.count = s.table.count ∧ h.digest = s.table.digest → addrCount s.streak < s.params.v.toNat →
        ∃ t, exec c s = .next t ∧ t.streak = 0 ∧ t.stepState = s.stepState
          ∧ t.counter .disagreements = s.counter .disagreements
          ∧ (∀ a, (t.roster.entry a).disagreements = (s.roster.entry a).disagreements)
          ∧ (h.sender ≠ s.addr → (t.roster.entry h.sender).presence = .present)
          ∧ (∀ a, a ≠ s.addr → a ≠ h.sender → (t.roster.entry a).presence =
              if hasAddr s.streak a = true then .suspect else (s.roster.entry a).presence)
          ∧ (c = .presenceAccepted h s.fingerprint → h.sender ≠ s.addr →
              t.counters = s.counters ∧ t.flags = s.flags ∧ t.table = s.table))
      ∧ (h.count ≠ s.table.count ∨ h.digest ≠ s.table.digest →
          ∃ t, exec c s = .next t
            ∧ t.counter .disagreements = satAdd16 (s.counter .disagreements) 1
            ∧ (h.sender ≠ s.addr → (t.roster.entry h.sender).disagreements
                = satAdd8 (s.roster.entry h.sender).disagreements 1)
            ∧ (∀ a, a ≠ h.sender ∨ a = s.addr →
                (t.roster.entry a).disagreements = (s.roster.entry a).disagreements
                  ∧ (t.roster.entry a).presence = (s.roster.entry a).presence)
            ∧ (addrCount (addAddr s.streak h.sender) < s.params.v.toNat →
                t.stepState = s.stepState
                  ∧ ((∀ tk ep, c ≠ .clearAccepted h tk ep) → t.streak = addAddr s.streak h.sender)
                  ∧ (∀ tk ep, c = .clearAccepted h tk ep → t.streak = 0)
                  ∧ (c = .presenceAccepted h s.fingerprint → h.sender ≠ s.addr → t.flags = s.flags))
            ∧ (s.params.v.toNat ≤ addrCount (addAddr s.streak h.sender) → s.stepState = .mute →
                t.streak = 0 ∧ t.stepState = .mute ∧ t.hasFlag .diverged = true
                  ∧ (c = .presenceAccepted h s.fingerprint → t.table = s.table))))

/-- A PRESENCE that is not voted on and ends no listening period, as one without its in-step flag and one that
shows another fingerprint are not, is recorded in the sender's entry, with the test of its fingerprint in a
configured state, and touches nothing else beside the line (R88, R98, R99, R104): the frame has ended, so the
Receiver waits for an idle line (R63) and both recessive counts begin afresh (R52). That they are 0 at the end
of an accepted frame is the model's choice (log 8). Every PRESENCE, voted on or not, is recorded and tested in
every step state, and the own address as sender sets ADDRESS_CLASH (R67). -/
def Obligations.PresenceIsRecorded : Prop :=
  (∀ (h : Header) (fp : Half) (s : State), s.receives = true → s.OnlyRecords h fp → h.sender ≠ s.addr →
    exec (.presenceAccepted h fp) s = .next { s with
      rx := .waitIdle, rxRecessive := 0, tx := { s.tx with recessive := 0 },
      roster := s.roster.modify h.sender (fun e =>
        { presence := if e.presence = .absent then .present else e.presence,
          inStep := h.inStep, armed := h.armed, heard := s.tick, disagreements := e.disagreements,
          mismatched := if s.stepState = .unconfigured then e.mismatched
                        else decide (fp ≠ s.fingerprint) }) })
  ∧ (∀ (h : Header) (fp : Half) (s : State), s.receives = true →
    ∃ t, exec (.presenceAccepted h fp) s = .next t ∧ t.tick = s.tick ∧ t.orders = s.orders
      ∧ s.RecordedTested h fp t)

/-! ### Resynchronisation -/

/-- A header addressed to a station that waits for one is taken: the counter is set from its tick, the
responder and the header values are recorded, and chunk 1 is expected within 32 ticks, while the table
and the hold queue stay; a header of an empty table is installed at once, with the held frames applied to it,
or fails at a gap, as where a held frame's carried count is after the running count. One with another fingerprint puts the station in CONFLICT, its requester, outbox and roster
cleared and its table kept; one that fails a test of R114, a body of other than 20 bytes among them, fails the
attempt. With the request not sent and in RETRY_WAIT every STATE frame is ignored, and so are one with an index
above 0 or for another target while the request waits for its header, and every one at a MUTE station
(R75, R112, R113, R114, R118 to R123, R132). -/
def Obligations.HeaderIsTakenOrRefused : Prop :=
  (∀ (h : Header) (hd : SnapHeader) (tick d : Tick) (s : State), s.receives = true →
      s.stepState = .outOfStep → s.requester.phase = .requesting (some d) →
      hd.openCount ≤ 4 → hd.historyCount ≤ 16 → hd.fingerprint = s.fingerprint →
      1 < 1 + hd.openCount + hd.historyCount →
        ∃ t, exec (.stateAccepted h ([addrByte s.addr, 0#8,
                BitVec.ofNat 8 (1 + hd.openCount + hd.historyCount)] ++ hd.payload tick)) s = .next t
          ∧ t.requester =
              { phase := .receiving
                  { responder := h.sender, header := hd, total := 1 + hd.openCount + hd.historyCount,
                    expected := 1, records := [], deadline := tick + 1 + 32 },
                attempt := s.requester.attempt, unanswered := 0, hold := s.requester.hold }
          ∧ t.tick = tick + 1 ∧ t.lastClaimed = none ∧ t.lastSent = tick + 1 ∧ s.RecordedPlain h t
          ∧ t.stepState = .outOfStep ∧ t.table = s.table ∧ t.counters = s.counters
          ∧ t.orders = s.orders ∧ t.stage = s.stage)
  ∧ (∀ (h : Header) (hd : SnapHeader) (tick d : Tick) (s : State), s.receives = true →
      s.stepState = .outOfStep → s.requester.phase = .requesting (some d) →
      hd.openCount = 0 → hd.historyCount = 0 → hd.fingerprint = s.fingerprint →
        ∃ t, exec (.stateAccepted h ([addrByte s.addr, 0#8, 1#8] ++ hd.payload tick)) s = .next t
          ∧ t.tick = tick + 1 ∧ t.lastClaimed = none ∧ t.lastSent = tick + 1 ∧ t.stage = s.stage
          ∧ s.RecordedPlain h t
          ∧ (walk hd.position s.requester.hold = none ∨ GapAt hd.position s.requester.hold →
              t.stepState = .outOfStep ∧ t.table = s.table ∧ t.orders = s.orders
                ∧ t.counter .resyncsFailed = satAdd16 (s.counter .resyncsFailed) 1
                ∧ t.requester = { phase := .requesting none, attempt := satAdd8 s.requester.attempt 1,
                                  unanswered := 0, hold := [] })
          ∧ (∀ marked, walk hd.position s.requester.hold = some marked →
              s.InstalledAs hd [] marked (tick + 1) t)
          ∧ (s.requester.hold = [] →
              t.stepState = .inStep ∧ t.requester = Requester.idle
                ∧ t.table = { count := hd.position, digest := hd.digest, next := hd.next,
                              epoch := hd.epoch, overflow := hd.overflow, stale := hd.stale,
                              void := hd.void, slots := [], history := [] }
                ∧ t.counter .resyncsDone = satAdd16 (s.counter .resyncsDone) 1
                ∧ t.counter .resyncsFailed = s.counter .resyncsFailed))
  ∧ (∀ (h : Header) (total : Byte) (payload : List Byte) (d : Tick) (s : State), s.receives = true →
      s.stepState = .outOfStep → s.requester.phase = .requesting (some d) → s.OutboxLaw →
      Kind.lengthOk .state (3 + payload.length) = true →
        (half (payload.getD 12 0) (payload.getD 13 0) ≠ s.fingerprint →
          ∃ t, exec (.stateAccepted h ([addrByte s.addr, 0#8, total] ++ payload)) s = .next t
            ∧ t.stepState = .conflict ∧ t.hasFlag .conflict = true ∧ t.requester = Requester.idle
            ∧ t.tx.outbox = [] ∧ t.tx.deferred = [] ∧ t.roster = Roster.blank ∧ t.table = s.table
            ∧ t.tick = s.tick ∧ t.orders = s.orders ∧ t.stage = s.stage ∧ t.armed = s.armed
            ∧ t.counters = s.counters)
        ∧ (half (payload.getD 12 0) (payload.getD 13 0) = s.fingerprint →
            (3 + payload.length ≠ 20 ∨ 4 < (payload.getD 7 0).toNat ∨ 16 < (payload.getD 8 0).toNat
              ∨ total.toNat ≠ 1 + (payload.getD 7 0).toNat + (payload.getD 8 0).toNat) →
            ∃ t, exec (.stateAccepted h ([addrByte s.addr, 0#8, total] ++ payload)) s = .next t
              ∧ t.stepState = .outOfStep ∧ t.table = s.table ∧ t.tick = s.tick
              ∧ t.counter .resyncsFailed = satAdd16 (s.counter .resyncsFailed) 1
              ∧ t.requester = { phase := .requesting none, attempt := satAdd8 s.requester.attempt 1,
                                unanswered := 0, hold := [] }
              ∧ s.RecordedPlain h t
              ∧ t.tx.queued .stateReq = true ∧ t.flags = (if h.sender = s.addr
                  then s.flags ||| 0x100#9 else s.flags)))
  ∧ (∀ (h : Header) (target index total : Byte) (payload : List Byte) (s : State), s.receives = true →
      Kind.lengthOk .state (3 + payload.length) = true →
        (s.stepState = .outOfStep →
          (s.requester.phase = .requesting none ∨ (∃ r, s.requester.phase = .retryWait r)
            ∨ ∃ d, s.requester.phase = .requesting (some d) ∧ (target ≠ addrByte s.addr ∨ index ≠ 0)) →
          ∃ t, exec (.stateAccepted h ([target, index, total] ++ payload)) s = .next t
            ∧ t.requester = s.requester ∧ t.stepState = .outOfStep ∧ t.table = s.table
            ∧ t.tick = s.tick ∧ t.counters = s.counters ∧ t.tx.outbox = s.tx.outbox
            ∧ t.tx.deferred = s.tx.deferred ∧ t.orders = s.orders ∧ t.responder = s.responder
            ∧ s.RecordedPlain h t)
        ∧ (s.stepState = .mute →
          ∃ t, exec (.stateAccepted h ([target, index, total] ++ payload)) s = .next t
            ∧ t.requester = s.requester ∧ t.stepState = .mute ∧ t.table = s.table
            ∧ t.tick = s.tick ∧ t.tx.outbox = s.tx.outbox ∧ t.tx.deferred = s.tx.deferred
            ∧ t.orders = s.orders ∧ t.responder = s.responder ∧ s.RecordedPlain h t))

/-- In RECEIVING the expected chunk of the recorded responder is taken and renews the deadline, and the last
one brings the install: the table becomes that of the snapshot, its history noted NOT_SEEN, with the held
frames applied to it and counted, each open record takes its due, and the station is IN_STEP; a gap, which the
walk of the hold queue meets at a frame whose carried count is after the running count, fails the attempt and
leaves table and orders. The walk goes by the three rows of R118. A chunk of the responder for this station with another index, another total, or a
payload that fails a test of R117 fails the attempt BAD_CHUNK, and a STATE_REQ is offered with the next
attempt number; a chunk of another sender or for another target is passed over
(R112, R116 to R122). -/
def Obligations.ChunksAreTakenInOrder : Prop :=
  (∀ (running : Half) (f : Held) (rest : List Held), walk running [] = some []
    ∧ (countBefore f.count running = true → walk running (f :: rest) = walk running rest)
    ∧ (f.count = running →
        walk running (f :: rest) = (walk (running + 1) rest).map (fun marked => f :: marked))
    ∧ (countBefore running f.count = true → walk running (f :: rest) = none))
  ∧ (∀ (h : Header) (c : Receiving) (target index total : Byte) (payload : List Byte) (s : State),
    s.receives = true → s.stepState = .outOfStep → s.requester.phase = .receiving c →
    Kind.lengthOk .state (3 + payload.length) = true →
      ∃ t, exec (.stateAccepted h ([target, index, total] ++ payload)) s = .next t
        ∧ s.RecordedPlain h t
        ∧ (target ≠ addrByte s.addr ∨ h.sender ≠ c.responder →
            t.requester = s.requester ∧ t.table = s.table ∧ t.stepState = .outOfStep
              ∧ t.counters = s.counters ∧ t.tx.outbox = s.tx.outbox)
        ∧ (target = addrByte s.addr → h.sender = c.responder →
            (index.toNat ≠ c.expected ∨ total.toNat ≠ c.total
              ∨ ∀ r, checkRecord s.params.w.toNat (c.expected ≤ c.header.openCount) c.header.epoch
                  c.records payload = some r → 3 + payload.length ≠ 16 + 2 * r.members.length) →
            t.requester = { phase := .requesting none, attempt := satAdd8 s.requester.attempt 1,
                            unanswered := 0, hold := [] }
              ∧ t.counter .resyncsFailed = satAdd16 (s.counter .resyncsFailed) 1 ∧ t.table = s.table
              ∧ t.stepState = .outOfStep
              ∧ (s.tx.queued .stateReq = false →
                  t.tx.Offers (.stateReq s.fingerprint (satAdd8 s.requester.attempt 1))))
        ∧ (∀ r, target = addrByte s.addr → h.sender = c.responder → index.toNat = c.expected →
            total.toNat = c.total →
            checkRecord s.params.w.toNat (c.expected ≤ c.header.openCount) c.header.epoch c.records
              payload = some r →
            3 + payload.length = 16 + 2 * r.members.length →
              (c.expected + 1 < c.total →
                  t.requester = { s.requester with
                    phase := .receiving { c with records := c.records ++ [r],
                                                 expected := c.expected + 1,
                                                 deadline := s.tick + 32 } }
                  ∧ t.table = s.table ∧ t.counters = s.counters)
                ∧ (c.expected + 1 = c.total →
                    (walk c.header.position s.requester.hold = none
                        ∨ GapAt c.header.position s.requester.hold →
                        t.counter .resyncsFailed = satAdd16 (s.counter .resyncsFailed) 1
                          ∧ t.stepState = .outOfStep ∧ t.table = s.table ∧ t.orders = s.orders
                          ∧ t.requester =
                              { phase := .requesting none, attempt := satAdd8 s.requester.attempt 1,
                                unanswered := 0, hold := [] })
                    ∧ (∀ marked, walk c.header.position s.requester.hold = some marked →
                        s.InstalledAs c.header (c.records ++ [r]) marked s.tick t
                          ∧ t.counter .resyncsFailed = s.counter .resyncsFailed
                          ∧ t.tick = s.tick
                          ∧ t.hasFlag .leftStep = s.hasFlag .leftStep ∧ t.stage = s.stage))))

/-- A STATE_REQ from a peer starts an answer delay at an idle responder, 4 × (own address + 1) ticks
long, and is latched by one that serves another target with an empty latch; other requests, and one that
carries the own address, which sets ADDRESS_CLASH, are ignored (R67, R126). Whatever the step state and the frame's in-step flag, the request
is recorded in the sender's entry, with the test of its fingerprint in a configured state, and a sender that
the test marks is not voted on; outside IN_STEP a request that is not voted on and ends no listening period
touches nothing else beside the line (R88, R98, R99). -/
def Obligations.RequestsAreAnsweredOrLatched : Prop :=
  ∀ (h : Header) (fp : Half) (k : Byte) (s : State), s.receives = true →
    (s.stepState = .inStep → s.OnlyRecords h fp → h.sender ≠ s.addr →
      ∃ t, exec (.stateReqAccepted h fp k) s = .next t ∧ t.table = s.table ∧ t.stepState = .inStep
        ∧ t.counters = s.counters ∧ t.flags = s.flags ∧ t.streak = s.streak
        ∧ t.tx.outbox = s.tx.outbox ∧ t.rx = .waitIdle
        ∧ t.roster = s.roster.modify h.sender (fun e =>
            { presence := if e.presence = .absent then .present else e.presence,
              inStep := h.inStep, armed := h.armed, heard := s.tick, disagreements := e.disagreements,
              mismatched := decide (fp ≠ s.fingerprint) })
        ∧ (s.responder.phase = .idle → t.responder =
            { phase := .delay h.sender (s.tick + BitVec.ofNat 24 (4 * (s.addr.toNat + 1))),
              latch := s.responder.latch })
        ∧ (∀ u e, s.responder.phase = .delay u e → t.responder =
            if u ≠ h.sender ∧ s.responder.latch = none then { s.responder with latch := some h.sender }
            else s.responder)
        ∧ (∀ u b n i q, s.responder.phase = .sending u b n i q → t.responder =
            if u ≠ h.sender ∧ s.responder.latch = none then { s.responder with latch := some h.sender }
            else s.responder))
    ∧ (s.stepState ≠ .inStep → s.OnlyRecords h fp → h.sender ≠ s.addr →
      ∃ t, exec (.stateReqAccepted h fp k) s = .next t ∧ t = { s with
        rx := .waitIdle, rxRecessive := t.rxRecessive, tx := { s.tx with recessive := t.tx.recessive },
        roster := s.roster.modify h.sender (fun e =>
          { presence := if e.presence = .absent then .present else e.presence,
            inStep := h.inStep, armed := h.armed, heard := s.tick, disagreements := e.disagreements,
            mismatched := if s.stepState = .unconfigured then e.mismatched
                          else decide (fp ≠ s.fingerprint) }) })
    ∧ (∃ t, exec (.stateReqAccepted h fp k) s = .next t ∧ t.tick = s.tick ∧ s.RecordedTested h fp t)
    ∧ (s.stepState = .inStep → h.inStep = false → h.sender = s.addr →
      ∃ t, exec (.stateReqAccepted h fp k) s = .next t ∧ t.responder = s.responder
        ∧ t.roster = s.roster ∧ t.table = s.table ∧ t.tx.outbox = s.tx.outbox
        ∧ t.hasFlag .addressClash = true)

/-- A peer's header for the target a responder waits to serve, or serves with its own header unsent, makes
it stand down, its STATE withdrawn, and take its latch; a latch that holds the target is emptied in every
phase, and in every other case, a chunk of an index above 0 and a header for a target byte above 15 among them,
the frame has no effect on the responder (R127, R176). The sender's entry records the frame, and the own
address as sender sets ADDRESS_CLASH (R67, R98). The header's in-step flag may be set, as a responder sends it (R125): the vote on it keeps
the station in step. -/
def Obligations.ResponderStandsDown : Prop :=
  (∀ (h : Header) (target : Addr) (body : List Byte) (s : State), s.receives = true →
    s.stepState = .inStep → s.KeepsStep h → s.tx.Law → stateBodyTargets target body = true →
      ∃ t, exec (.stateAccepted h body) s = .next t ∧ t.table = s.table ∧ t.stepState = .inStep
        ∧ s.RecordedPlain h t
        ∧ ((∃ e, s.responder.phase = .delay target e)
              ∨ (∃ b n i, s.responder.phase = .sending target b n i false) →
            t.tx.queued .state = (match s.responder.phase with
              | .sending _ _ _ _ _ => false
              | .idle | .delay _ _ => s.tx.queued .state)
            ∧ t.responder =
              (match s.responder.latch with
                | some a => if a = target then Responder.idle
                    else { phase := .delay a (s.tick + BitVec.ofNat 24 (4 * (s.addr.toNat + 1))),
                           latch := none }
                | none => Responder.idle))
        ∧ (s.responder.phase = .idle ∨ (∃ u e, s.responder.phase = .delay u e ∧ u ≠ target)
              ∨ (∃ u b n i q, s.responder.phase = .sending u b n i q ∧ (u ≠ target ∨ q = true)) →
            t.tx.outbox = s.tx.outbox ∧ t.responder =
              { s.responder with
                latch := if s.responder.latch = some target then none else s.responder.latch }))
  ∧ (∀ (h : Header) (body : List Byte) (s : State), s.receives = true →
    s.stepState = .inStep → s.KeepsStep h → Kind.lengthOk .state body.length = true →
    (body.getD 1 0 ≠ 0#8 ∨ 15 < (body.getD 0 0).toNat) →
      ∃ t, exec (.stateAccepted h body) s = .next t ∧ t.table = s.table ∧ t.stepState = .inStep
        ∧ t.tx.outbox = s.tx.outbox ∧ t.tx.deferred = s.tx.deferred ∧ t.responder = s.responder
        ∧ s.RecordedPlain h t)

/-! ### Dues and deadlines -/

/-- A reached close due queues a CLOSE unless one for the number stands, and every CLAIM entry whose
expiry is reached leaves or, in transmission, takes a mark (R32, R83). -/
def Obligations.DuesAndExpiriesAreActedOn : Prop :=
  ∀ s : State, s.inReset = false → s.OutboxLaw → s.TableLaw →
    (s.stepState = .inStep →
        ∃ t, exec .closeDueReached s = .next t ∧ t = { s with tx := t.tx }
          ∧ (∀ r ∈ s.table.slots, reachedOpt s.tick r.due = true →
              t.tx.outbox.any (fun e => e.body == .close r.number) = true)
          ∧ (∀ e ∈ s.tx.outbox, e ∈ t.tx.outbox)
          ∧ (∀ e ∈ t.tx.outbox, e ∈ s.tx.outbox ∨ ∃ r ∈ s.table.slots,
              reachedOpt s.tick r.due = true ∧ e = Entry.fresh (.close r.number)))
      ∧ (s.tx.deferred = [] →
          exec .claimExpiry s = .next
            { s.rise .claimsWithdrawn
                (s.tx.outbox.filter (fun e => s.expired e.body && !e.sending)).length with
              tx := { s.tx with
                outbox := (s.tx.outbox.filter (fun e => !s.expired e.body || e.sending)).map
                  (fun e => if s.expired e.body then { e with mark := true } else e) } })
      ∧ (∀ stamp epoch, s.expired (.claim stamp epoch) = true ↔
          (s.tick - (stamp + BitVec.ofNat 24 (s.params.w.toNat + s.params.g.toNat))).toNat ≤ 8388607)

/-- A PRESENCE is offered when P ticks have passed since the last completed frame and none stands, and is
deferred while six general entries stand; none is offered before the tick is reached, while one stands admitted
or deferred, or where the station does not transmit; a peer
silent for 4 × P ticks becomes ABSENT, its count 0 and its address out of the streak
(R71, R101, R103). -/
def Obligations.PresenceAndAbsenceAreTimed : Prop :=
  ∀ s : State, s.inReset = false →
    (s.transmits = true →
        (s.tick - (s.lastSent + BitVec.ofNat 24 s.params.p.toNat)).toNat ≤ 8388607 →
        s.tx.queued .presence = false → generalCount s.tx.outbox < 6 →
        exec .presenceDue s = .next { s with tx := { s.tx with
          outbox := insertEntry (Entry.fresh (.presence s.fingerprint)) s.tx.outbox } })
      ∧ (s.transmits = true →
        (s.tick - (s.lastSent + BitVec.ofNat 24 s.params.p.toNat)).toNat ≤ 8388607 →
        s.tx.queued .presence = false → 6 ≤ generalCount s.tx.outbox →
        exec .presenceDue s = .next { s with tx := { s.tx with
          deferred := s.tx.deferred ++ [.presence s.fingerprint] } })
      ∧ (s.transmits = false
          ∨ 8388607 < (s.tick - (s.lastSent + BitVec.ofNat 24 s.params.p.toNat)).toNat
          ∨ s.tx.queued .presence = true → exec .presenceDue s = .next s)
      ∧ (s.stepState ≠ .unconfigured →
          ∃ t, exec .absence s = .next t ∧ t = { s with roster := t.roster, streak := t.streak }
            ∧ ∀ a : Addr,
              (a ≠ s.addr → (s.roster.entry a).presence ≠ .absent →
                (s.tick - ((s.roster.entry a).heard
                  + BitVec.ofNat 24 (4 * s.params.p.toNat))).toNat ≤ 8388607 →
                t.roster.entry a = { s.roster.entry a with presence := .absent, disagreements := 0 }
                  ∧ hasAddr t.streak a = false)
              ∧ (a = s.addr ∨ (s.roster.entry a).presence = .absent
                  ∨ 8388607 < (s.tick - ((s.roster.entry a).heard
                    + BitVec.ofNat 24 (4 * s.params.p.toNat))).toNat →
                t.roster.entry a = s.roster.entry a ∧ hasAddr t.streak a = hasAddr s.streak a))

/-- A reached request deadline fails the attempt UNANSWERED and asks again below four of them; at the
fourth the station self-asserts when the check passes, with a due for every open record and a CLOSE at once for
each due already reached, and waits 1024 ticks when it does not; a reached
chunk deadline fails the attempt and asks again; the retry tick asks again. To ask again is to offer a
STATE_REQ with the next attempt number, unless one stands. The check passes when no PRESENT
peer has its in-step flag set without the mark and every PRESENT peer has a higher address
(R31, R32, R108, R116, R122, R123, R124). -/
def Obligations.ResyncDeadlinesAreActedOn : Prop :=
  (∀ (d : Tick) (s : State), s.inReset = false → (s.tick - d).toNat ≤ 8388607 →
      (s.requester.phase = .requesting (some d) →
          ∃ t, exec .requestDeadline s = .next t
            ∧ t.counter .resyncsFailed = satAdd16 (s.counter .resyncsFailed) 1
            ∧ t.table.shared = s.table.shared ∧ t.orders = s.orders ∧ t.requester.hold = []
            ∧ (s.requester.unanswered < 3 → t.requester =
                { phase := .requesting none, attempt := satAdd8 s.requester.attempt 1,
                  unanswered := s.requester.unanswered + 1, hold := [] } ∧ t.stepState = s.stepState
                ∧ (s.tx.queued .stateReq = false →
                    t.tx.Offers (.stateReq s.fingerprint (satAdd8 s.requester.attempt 1))))
            ∧ (3 ≤ s.requester.unanswered → s.selfAsserts = true →
                t.stepState = .inStep ∧ t.hasFlag .selfAsserted = true ∧ t.requester = Requester.idle
                  ∧ t.counter .resyncsDone = s.counter .resyncsDone
                  ∧ t.table = { s.table with slots := s.table.slots.map (fun r =>
                      { r with due := some (closeDue s.params s.addr r.opener r.t0) }) }
                  ∧ (s.stepState = .outOfStep → s.OutboxLaw → s.TableLaw → t.ReachedDuesQueued
                      ∧ (∀ x ∈ s.tx.outbox, x ∈ t.tx.outbox)
                      ∧ ∀ x ∈ t.tx.outbox, x ∈ s.tx.outbox ∨ ∃ r ∈ t.table.slots,
                          reachedOpt t.tick r.due = true ∧ x = Entry.fresh (.close r.number)))
            ∧ (3 ≤ s.requester.unanswered → s.selfAsserts = false →
                t.requester.phase = .retryWait (s.tick + 1024) ∧ t.stepState = s.stepState
                  ∧ t.requester.attempt = s.requester.attempt))
        ∧ (∀ c, s.requester.phase = .receiving c → c.deadline = d →
            ∃ t, exec .chunkDeadline s = .next t ∧ t.table = s.table
              ∧ t.counter .resyncsFailed = satAdd16 (s.counter .resyncsFailed) 1
              ∧ t.requester = { phase := .requesting none, attempt := satAdd8 s.requester.attempt 1,
                                unanswered := 0, hold := [] }
              ∧ (s.tx.queued .stateReq = false →
                  t.tx.Offers (.stateReq s.fingerprint (satAdd8 s.requester.attempt 1))))
        ∧ (s.requester.phase = .retryWait d →
            ∃ t, exec .retryTick s = .next t ∧ t.table = s.table ∧ t.counters = s.counters
              ∧ t.requester = { s.requester with phase := .requesting none,
                                                 attempt := satAdd8 s.requester.attempt 1 }
              ∧ (s.tx.queued .stateReq = false →
                  t.tx.Offers (.stateReq s.fingerprint (satAdd8 s.requester.attempt 1)))))
  ∧ (∀ s : State, s.selfAsserts = true ↔
      (¬∃ a : Addr, a ≠ s.addr ∧ (s.roster.entry a).presence = .present
          ∧ (s.roster.entry a).inStep = true ∧ (s.roster.entry a).mismatched = false)
        ∧ ∀ a : Addr, a ≠ s.addr → (s.roster.entry a).presence = .present → s.addr < a)

/-- The end of an answer delay takes the snapshot and offers its header chunk, index 0, admitted while a
general place is free and deferred otherwise; the listening end founds: IN_STEP
with the founding table and one EPOCH queued (R128, R140, R143). -/
def Obligations.DelayAndListeningEnd : Prop :=
  ∀ (d : Tick) (s : State), s.inReset = false → (s.tick - d).toNat ≤ 8388607 →
    (∀ tg, s.responder.phase = .delay tg d → s.tx.queued .state = false →
        ∃ t, exec .answerDelayEnd s = .next t ∧ t.table = s.table
          ∧ (generalCount s.tx.outbox < 6 → t.tx.deferred = s.tx.deferred ∧ t.tx.outbox = insertEntry
              (Entry.fresh (.state (s.snapshot.chunk tg (1 + s.snapshot.records.length) 0))) s.tx.outbox)
          ∧ (6 ≤ generalCount s.tx.outbox → t.tx.outbox = s.tx.outbox
              ∧ .state (s.snapshot.chunk tg (1 + s.snapshot.records.length) 0) ∈ t.tx.deferred)
          ∧ s.snapshot.chunk tg (1 + s.snapshot.records.length) 0
              = { target := tg, index := 0,
                  total := 1 + (s.table.slots.length + s.table.history.length),
                  payload := .header
                    { position := s.table.count, digest := s.table.digest, next := s.table.next,
                      epoch := s.table.epoch, openCount := s.table.slots.length,
                      historyCount := s.table.history.length, fingerprint := s.fingerprint,
                      overflow := s.table.overflow, stale := s.table.stale, void := s.table.void } }
          ∧ t.counters = s.counters ∧ t.responder.latch = s.responder.latch
          ∧ t.responder.phase = .sending tg s.snapshot (1 + s.snapshot.records.length) 0 false
          ∧ s.snapshot.records.length = s.table.slots.length + s.table.history.length)
      ∧ (s.stepState = .listening → s.listeningEnd = some d → s.tx.outbox = [] →
          exec .listeningEnd s = .next { s with
            stepState := .inStep, listeningEnd := none, lastSent := s.tick,
            table := { count := 0, digest := s.fingerprint, next := 0, epoch := 0, overflow := 0,
                       stale := 0, void := 0, slots := [], history := [] },
            tx := { s.tx with outbox := [Entry.fresh .epoch] } })
end

