-- ==== Sys2Proof/Laws/State.lean ====
section
/-! SUPPORT. The basic updates of the state, field by field: what each leaves alone and what it writes. -/

namespace Sys2Proof.Machine

/-! ### State.rise -/

@[simp] theorem State.rise_inReset (c : Counter) (n : Nat) (s : State) :
    (s.rise c n).inReset = s.inReset := rfl
@[simp] theorem State.rise_csnHigh (c : Counter) (n : Nat) (s : State) :
    (s.rise c n).csnHigh = s.csnHigh := rfl
@[simp] theorem State.rise_addr (c : Counter) (n : Nat) (s : State) :
    (s.rise c n).addr = s.addr := rfl
@[simp] theorem State.rise_rate (c : Counter) (n : Nat) (s : State) :
    (s.rise c n).rate = s.rate := rfl
@[simp] theorem State.rise_params (c : Counter) (n : Nat) (s : State) :
    (s.rise c n).params = s.params := rfl
@[simp] theorem State.rise_fingerprint (c : Counter) (n : Nat) (s : State) :
    (s.rise c n).fingerprint = s.fingerprint := rfl
@[simp] theorem State.rise_tick (c : Counter) (n : Nat) (s : State) :
    (s.rise c n).tick = s.tick := rfl
@[simp] theorem State.rise_armed (c : Counter) (n : Nat) (s : State) :
    (s.rise c n).armed = s.armed := rfl
@[simp] theorem State.rise_lastClaimed (c : Counter) (n : Nat) (s : State) :
    (s.rise c n).lastClaimed = s.lastClaimed := rfl
@[simp] theorem State.rise_tx (c : Counter) (n : Nat) (s : State) :
    (s.rise c n).tx = s.tx := rfl
@[simp] theorem State.rise_rx (c : Counter) (n : Nat) (s : State) :
    (s.rise c n).rx = s.rx := rfl
@[simp] theorem State.rise_rxRecessive (c : Counter) (n : Nat) (s : State) :
    (s.rise c n).rxRecessive = s.rxRecessive := rfl
@[simp] theorem State.rise_table (c : Counter) (n : Nat) (s : State) :
    (s.rise c n).table = s.table := rfl
@[simp] theorem State.rise_stepState (c : Counter) (n : Nat) (s : State) :
    (s.rise c n).stepState = s.stepState := rfl
@[simp] theorem State.rise_listeningEnd (c : Counter) (n : Nat) (s : State) :
    (s.rise c n).listeningEnd = s.listeningEnd := rfl
@[simp] theorem State.rise_streak (c : Counter) (n : Nat) (s : State) :
    (s.rise c n).streak = s.streak := rfl
@[simp] theorem State.rise_roster (c : Counter) (n : Nat) (s : State) :
    (s.rise c n).roster = s.roster := rfl
@[simp] theorem State.rise_lastSent (c : Counter) (n : Nat) (s : State) :
    (s.rise c n).lastSent = s.lastSent := rfl
@[simp] theorem State.rise_requester (c : Counter) (n : Nat) (s : State) :
    (s.rise c n).requester = s.requester := rfl
@[simp] theorem State.rise_responder (c : Counter) (n : Nat) (s : State) :
    (s.rise c n).responder = s.responder := rfl
@[simp] theorem State.rise_orders (c : Counter) (n : Nat) (s : State) :
    (s.rise c n).orders = s.orders := rfl
@[simp] theorem State.rise_port (c : Counter) (n : Nat) (s : State) :
    (s.rise c n).port = s.port := rfl
@[simp] theorem State.rise_stage (c : Counter) (n : Nat) (s : State) :
    (s.rise c n).stage = s.stage := rfl
@[simp] theorem State.rise_flags (c : Counter) (n : Nat) (s : State) :
    (s.rise c n).flags = s.flags := rfl
@[simp] theorem State.rise_attention (c : Counter) (n : Nat) (s : State) :
    (s.rise c n).attention = s.attention := rfl
@[simp] theorem State.rise_counters (c : Counter) (n : Nat) (s : State) :
    (s.rise c n).counters = Counters.rise c n s.counters := rfl
@[simp] theorem State.rise_pending (c : Counter) (n : Nat) (s : State) :
    (s.rise c n).pending = s.pending := rfl

/-! ### State.setFlags -/

@[simp] theorem State.setFlags_inReset (m : BitVec 9) (s : State) :
    (s.setFlags m).inReset = s.inReset := rfl
@[simp] theorem State.setFlags_csnHigh (m : BitVec 9) (s : State) :
    (s.setFlags m).csnHigh = s.csnHigh := rfl
@[simp] theorem State.setFlags_addr (m : BitVec 9) (s : State) :
    (s.setFlags m).addr = s.addr := rfl
@[simp] theorem State.setFlags_rate (m : BitVec 9) (s : State) :
    (s.setFlags m).rate = s.rate := rfl
@[simp] theorem State.setFlags_params (m : BitVec 9) (s : State) :
    (s.setFlags m).params = s.params := rfl
@[simp] theorem State.setFlags_fingerprint (m : BitVec 9) (s : State) :
    (s.setFlags m).fingerprint = s.fingerprint := rfl
@[simp] theorem State.setFlags_tick (m : BitVec 9) (s : State) :
    (s.setFlags m).tick = s.tick := rfl
@[simp] theorem State.setFlags_armed (m : BitVec 9) (s : State) :
    (s.setFlags m).armed = s.armed := rfl
@[simp] theorem State.setFlags_lastClaimed (m : BitVec 9) (s : State) :
    (s.setFlags m).lastClaimed = s.lastClaimed := rfl
@[simp] theorem State.setFlags_tx (m : BitVec 9) (s : State) :
    (s.setFlags m).tx = s.tx := rfl
@[simp] theorem State.setFlags_rx (m : BitVec 9) (s : State) :
    (s.setFlags m).rx = s.rx := rfl
@[simp] theorem State.setFlags_rxRecessive (m : BitVec 9) (s : State) :
    (s.setFlags m).rxRecessive = s.rxRecessive := rfl
@[simp] theorem State.setFlags_table (m : BitVec 9) (s : State) :
    (s.setFlags m).table = s.table := rfl
@[simp] theorem State.setFlags_stepState (m : BitVec 9) (s : State) :
    (s.setFlags m).stepState = s.stepState := rfl
@[simp] theorem State.setFlags_listeningEnd (m : BitVec 9) (s : State) :
    (s.setFlags m).listeningEnd = s.listeningEnd := rfl
@[simp] theorem State.setFlags_streak (m : BitVec 9) (s : State) :
    (s.setFlags m).streak = s.streak := rfl
@[simp] theorem State.setFlags_roster (m : BitVec 9) (s : State) :
    (s.setFlags m).roster = s.roster := rfl
@[simp] theorem State.setFlags_lastSent (m : BitVec 9) (s : State) :
    (s.setFlags m).lastSent = s.lastSent := rfl
@[simp] theorem State.setFlags_requester (m : BitVec 9) (s : State) :
    (s.setFlags m).requester = s.requester := rfl
@[simp] theorem State.setFlags_responder (m : BitVec 9) (s : State) :
    (s.setFlags m).responder = s.responder := rfl
@[simp] theorem State.setFlags_orders (m : BitVec 9) (s : State) :
    (s.setFlags m).orders = s.orders := rfl
@[simp] theorem State.setFlags_port (m : BitVec 9) (s : State) :
    (s.setFlags m).port = { s.port with fresh := s.port.fresh || s.newlySet m } := rfl
@[simp] theorem State.setFlags_stage (m : BitVec 9) (s : State) :
    (s.setFlags m).stage = s.stage := rfl
@[simp] theorem State.setFlags_flags (m : BitVec 9) (s : State) :
    (s.setFlags m).flags = s.flags ||| m := rfl
@[simp] theorem State.setFlags_attention (m : BitVec 9) (s : State) :
    (s.setFlags m).attention = (s.attention || s.newlySet m) := rfl
@[simp] theorem State.setFlags_counters (m : BitVec 9) (s : State) :
    (s.setFlags m).counters = s.counters := rfl
@[simp] theorem State.setFlags_pending (m : BitVec 9) (s : State) :
    (s.setFlags m).pending = s.pending := rfl

/-! ### State.setFlag -/

@[simp] theorem State.setFlag_inReset (f : Flag) (s : State) :
    (s.setFlag f).inReset = s.inReset := rfl
@[simp] theorem State.setFlag_csnHigh (f : Flag) (s : State) :
    (s.setFlag f).csnHigh = s.csnHigh := rfl
@[simp] theorem State.setFlag_addr (f : Flag) (s : State) :
    (s.setFlag f).addr = s.addr := rfl
@[simp] theorem State.setFlag_rate (f : Flag) (s : State) :
    (s.setFlag f).rate = s.rate := rfl
@[simp] theorem State.setFlag_params (f : Flag) (s : State) :
    (s.setFlag f).params = s.params := rfl
@[simp] theorem State.setFlag_fingerprint (f : Flag) (s : State) :
    (s.setFlag f).fingerprint = s.fingerprint := rfl
@[simp] theorem State.setFlag_tick (f : Flag) (s : State) :
    (s.setFlag f).tick = s.tick := rfl
@[simp] theorem State.setFlag_armed (f : Flag) (s : State) :
    (s.setFlag f).armed = s.armed := rfl
@[simp] theorem State.setFlag_lastClaimed (f : Flag) (s : State) :
    (s.setFlag f).lastClaimed = s.lastClaimed := rfl
@[simp] theorem State.setFlag_tx (f : Flag) (s : State) :
    (s.setFlag f).tx = s.tx := rfl
@[simp] theorem State.setFlag_rx (f : Flag) (s : State) :
    (s.setFlag f).rx = s.rx := rfl
@[simp] theorem State.setFlag_rxRecessive (f : Flag) (s : State) :
    (s.setFlag f).rxRecessive = s.rxRecessive := rfl
@[simp] theorem State.setFlag_table (f : Flag) (s : State) :
    (s.setFlag f).table = s.table := rfl
@[simp] theorem State.setFlag_stepState (f : Flag) (s : State) :
    (s.setFlag f).stepState = s.stepState := rfl
@[simp] theorem State.setFlag_listeningEnd (f : Flag) (s : State) :
    (s.setFlag f).listeningEnd = s.listeningEnd := rfl
@[simp] theorem State.setFlag_streak (f : Flag) (s : State) :
    (s.setFlag f).streak = s.streak := rfl
@[simp] theorem State.setFlag_roster (f : Flag) (s : State) :
    (s.setFlag f).roster = s.roster := rfl
@[simp] theorem State.setFlag_lastSent (f : Flag) (s : State) :
    (s.setFlag f).lastSent = s.lastSent := rfl
@[simp] theorem State.setFlag_requester (f : Flag) (s : State) :
    (s.setFlag f).requester = s.requester := rfl
@[simp] theorem State.setFlag_responder (f : Flag) (s : State) :
    (s.setFlag f).responder = s.responder := rfl
@[simp] theorem State.setFlag_orders (f : Flag) (s : State) :
    (s.setFlag f).orders = s.orders := rfl
@[simp] theorem State.setFlag_port (f : Flag) (s : State) :
    (s.setFlag f).port = { s.port with fresh := s.port.fresh || s.newlySet f.mask } := rfl
@[simp] theorem State.setFlag_stage (f : Flag) (s : State) :
    (s.setFlag f).stage = s.stage := rfl
@[simp] theorem State.setFlag_flags (f : Flag) (s : State) :
    (s.setFlag f).flags = s.flags ||| f.mask := rfl
@[simp] theorem State.setFlag_attention (f : Flag) (s : State) :
    (s.setFlag f).attention = (s.attention || s.newlySet f.mask) := rfl
@[simp] theorem State.setFlag_counters (f : Flag) (s : State) :
    (s.setFlag f).counters = s.counters := rfl
@[simp] theorem State.setFlag_pending (f : Flag) (s : State) :
    (s.setFlag f).pending = s.pending := rfl

/-! ### State.admitEntry -/

@[simp] theorem State.admitEntry_inReset (b : Body) (s : State) :
    (s.admitEntry b).inReset = s.inReset := rfl
@[simp] theorem State.admitEntry_csnHigh (b : Body) (s : State) :
    (s.admitEntry b).csnHigh = s.csnHigh := rfl
@[simp] theorem State.admitEntry_addr (b : Body) (s : State) :
    (s.admitEntry b).addr = s.addr := rfl
@[simp] theorem State.admitEntry_rate (b : Body) (s : State) :
    (s.admitEntry b).rate = s.rate := rfl
@[simp] theorem State.admitEntry_params (b : Body) (s : State) :
    (s.admitEntry b).params = s.params := rfl
@[simp] theorem State.admitEntry_fingerprint (b : Body) (s : State) :
    (s.admitEntry b).fingerprint = s.fingerprint := rfl
@[simp] theorem State.admitEntry_tick (b : Body) (s : State) :
    (s.admitEntry b).tick = s.tick := rfl
@[simp] theorem State.admitEntry_armed (b : Body) (s : State) :
    (s.admitEntry b).armed = s.armed := rfl
@[simp] theorem State.admitEntry_lastClaimed (b : Body) (s : State) :
    (s.admitEntry b).lastClaimed = s.lastClaimed := rfl
@[simp] theorem State.admitEntry_tx (b : Body) (s : State) :
    (s.admitEntry b).tx = s.tx.admitEntry b := rfl
@[simp] theorem State.admitEntry_rx (b : Body) (s : State) :
    (s.admitEntry b).rx = s.rx := rfl
@[simp] theorem State.admitEntry_rxRecessive (b : Body) (s : State) :
    (s.admitEntry b).rxRecessive = s.rxRecessive := rfl
@[simp] theorem State.admitEntry_table (b : Body) (s : State) :
    (s.admitEntry b).table = s.table := rfl
@[simp] theorem State.admitEntry_stepState (b : Body) (s : State) :
    (s.admitEntry b).stepState = s.stepState := rfl
@[simp] theorem State.admitEntry_listeningEnd (b : Body) (s : State) :
    (s.admitEntry b).listeningEnd = s.listeningEnd := rfl
@[simp] theorem State.admitEntry_streak (b : Body) (s : State) :
    (s.admitEntry b).streak = s.streak := rfl
@[simp] theorem State.admitEntry_roster (b : Body) (s : State) :
    (s.admitEntry b).roster = s.roster := rfl
@[simp] theorem State.admitEntry_lastSent (b : Body) (s : State) :
    (s.admitEntry b).lastSent = s.lastSent := rfl
@[simp] theorem State.admitEntry_requester (b : Body) (s : State) :
    (s.admitEntry b).requester = s.requester := rfl
@[simp] theorem State.admitEntry_responder (b : Body) (s : State) :
    (s.admitEntry b).responder = s.responder := rfl
@[simp] theorem State.admitEntry_orders (b : Body) (s : State) :
    (s.admitEntry b).orders = s.orders := rfl
@[simp] theorem State.admitEntry_port (b : Body) (s : State) :
    (s.admitEntry b).port = s.port := rfl
@[simp] theorem State.admitEntry_stage (b : Body) (s : State) :
    (s.admitEntry b).stage = s.stage := rfl
@[simp] theorem State.admitEntry_flags (b : Body) (s : State) :
    (s.admitEntry b).flags = s.flags := rfl
@[simp] theorem State.admitEntry_attention (b : Body) (s : State) :
    (s.admitEntry b).attention = s.attention := rfl
@[simp] theorem State.admitEntry_counters (b : Body) (s : State) :
    (s.admitEntry b).counters = s.counters := rfl
@[simp] theorem State.admitEntry_pending (b : Body) (s : State) :
    (s.admitEntry b).pending = s.pending := rfl

/-! ### State.offer -/

@[simp] theorem State.offer_inReset (b : Body) (s : State) :
    (s.offer b).inReset = s.inReset := rfl
@[simp] theorem State.offer_csnHigh (b : Body) (s : State) :
    (s.offer b).csnHigh = s.csnHigh := rfl
@[simp] theorem State.offer_addr (b : Body) (s : State) :
    (s.offer b).addr = s.addr := rfl
@[simp] theorem State.offer_rate (b : Body) (s : State) :
    (s.offer b).rate = s.rate := rfl
@[simp] theorem State.offer_params (b : Body) (s : State) :
    (s.offer b).params = s.params := rfl
@[simp] theorem State.offer_fingerprint (b : Body) (s : State) :
    (s.offer b).fingerprint = s.fingerprint := rfl
@[simp] theorem State.offer_tick (b : Body) (s : State) :
    (s.offer b).tick = s.tick := rfl
@[simp] theorem State.offer_armed (b : Body) (s : State) :
    (s.offer b).armed = s.armed := rfl
@[simp] theorem State.offer_lastClaimed (b : Body) (s : State) :
    (s.offer b).lastClaimed = s.lastClaimed := rfl
@[simp] theorem State.offer_tx (b : Body) (s : State) :
    (s.offer b).tx = s.tx.offer b := rfl
@[simp] theorem State.offer_rx (b : Body) (s : State) :
    (s.offer b).rx = s.rx := rfl
@[simp] theorem State.offer_rxRecessive (b : Body) (s : State) :
    (s.offer b).rxRecessive = s.rxRecessive := rfl
@[simp] theorem State.offer_table (b : Body) (s : State) :
    (s.offer b).table = s.table := rfl
@[simp] theorem State.offer_stepState (b : Body) (s : State) :
    (s.offer b).stepState = s.stepState := rfl
@[simp] theorem State.offer_listeningEnd (b : Body) (s : State) :
    (s.offer b).listeningEnd = s.listeningEnd := rfl
@[simp] theorem State.offer_streak (b : Body) (s : State) :
    (s.offer b).streak = s.streak := rfl
@[simp] theorem State.offer_roster (b : Body) (s : State) :
    (s.offer b).roster = s.roster := rfl
@[simp] theorem State.offer_lastSent (b : Body) (s : State) :
    (s.offer b).lastSent = s.lastSent := rfl
@[simp] theorem State.offer_requester (b : Body) (s : State) :
    (s.offer b).requester = s.requester := rfl
@[simp] theorem State.offer_responder (b : Body) (s : State) :
    (s.offer b).responder = s.responder := rfl
@[simp] theorem State.offer_orders (b : Body) (s : State) :
    (s.offer b).orders = s.orders := rfl
@[simp] theorem State.offer_port (b : Body) (s : State) :
    (s.offer b).port = s.port := rfl
@[simp] theorem State.offer_stage (b : Body) (s : State) :
    (s.offer b).stage = s.stage := rfl
@[simp] theorem State.offer_flags (b : Body) (s : State) :
    (s.offer b).flags = s.flags := rfl
@[simp] theorem State.offer_attention (b : Body) (s : State) :
    (s.offer b).attention = s.attention := rfl
@[simp] theorem State.offer_counters (b : Body) (s : State) :
    (s.offer b).counters = s.counters := rfl
@[simp] theorem State.offer_pending (b : Body) (s : State) :
    (s.offer b).pending = s.pending := rfl

/-! ### State.withdraw -/

@[simp] theorem State.withdraw_inReset (p : Body → Bool) (s : State) :
    (s.withdraw p).inReset = s.inReset := rfl
@[simp] theorem State.withdraw_csnHigh (p : Body → Bool) (s : State) :
    (s.withdraw p).csnHigh = s.csnHigh := rfl
@[simp] theorem State.withdraw_addr (p : Body → Bool) (s : State) :
    (s.withdraw p).addr = s.addr := rfl
@[simp] theorem State.withdraw_rate (p : Body → Bool) (s : State) :
    (s.withdraw p).rate = s.rate := rfl
@[simp] theorem State.withdraw_params (p : Body → Bool) (s : State) :
    (s.withdraw p).params = s.params := rfl
@[simp] theorem State.withdraw_fingerprint (p : Body → Bool) (s : State) :
    (s.withdraw p).fingerprint = s.fingerprint := rfl
@[simp] theorem State.withdraw_tick (p : Body → Bool) (s : State) :
    (s.withdraw p).tick = s.tick := rfl
@[simp] theorem State.withdraw_armed (p : Body → Bool) (s : State) :
    (s.withdraw p).armed = s.armed := rfl
@[simp] theorem State.withdraw_lastClaimed (p : Body → Bool) (s : State) :
    (s.withdraw p).lastClaimed = s.lastClaimed := rfl
@[simp] theorem State.withdraw_tx (p : Body → Bool) (s : State) :
    (s.withdraw p).tx = s.tx.withdraw p := rfl
@[simp] theorem State.withdraw_rx (p : Body → Bool) (s : State) :
    (s.withdraw p).rx = s.rx := rfl
@[simp] theorem State.withdraw_rxRecessive (p : Body → Bool) (s : State) :
    (s.withdraw p).rxRecessive = s.rxRecessive := rfl
@[simp] theorem State.withdraw_table (p : Body → Bool) (s : State) :
    (s.withdraw p).table = s.table := rfl
@[simp] theorem State.withdraw_stepState (p : Body → Bool) (s : State) :
    (s.withdraw p).stepState = s.stepState := rfl
@[simp] theorem State.withdraw_listeningEnd (p : Body → Bool) (s : State) :
    (s.withdraw p).listeningEnd = s.listeningEnd := rfl
@[simp] theorem State.withdraw_streak (p : Body → Bool) (s : State) :
    (s.withdraw p).streak = s.streak := rfl
@[simp] theorem State.withdraw_roster (p : Body → Bool) (s : State) :
    (s.withdraw p).roster = s.roster := rfl
@[simp] theorem State.withdraw_lastSent (p : Body → Bool) (s : State) :
    (s.withdraw p).lastSent = s.lastSent := rfl
@[simp] theorem State.withdraw_requester (p : Body → Bool) (s : State) :
    (s.withdraw p).requester = s.requester := rfl
@[simp] theorem State.withdraw_responder (p : Body → Bool) (s : State) :
    (s.withdraw p).responder = s.responder := rfl
@[simp] theorem State.withdraw_orders (p : Body → Bool) (s : State) :
    (s.withdraw p).orders = s.orders := rfl
@[simp] theorem State.withdraw_port (p : Body → Bool) (s : State) :
    (s.withdraw p).port = s.port := rfl
@[simp] theorem State.withdraw_stage (p : Body → Bool) (s : State) :
    (s.withdraw p).stage = s.stage := rfl
@[simp] theorem State.withdraw_flags (p : Body → Bool) (s : State) :
    (s.withdraw p).flags = s.flags := rfl
@[simp] theorem State.withdraw_attention (p : Body → Bool) (s : State) :
    (s.withdraw p).attention = s.attention := rfl
@[simp] theorem State.withdraw_counters (p : Body → Bool) (s : State) :
    (s.withdraw p).counters = Counters.rise .claimsWithdrawn (s.tx.withdrawnClaims p) s.counters := rfl
@[simp] theorem State.withdraw_pending (p : Body → Bool) (s : State) :
    (s.withdraw p).pending = s.pending := rfl

/-! ### State.setTick -/

@[simp] theorem State.setTick_inReset (new : Tick) (s : State) :
    (s.setTick new).inReset = s.inReset := rfl
@[simp] theorem State.setTick_csnHigh (new : Tick) (s : State) :
    (s.setTick new).csnHigh = s.csnHigh := rfl
@[simp] theorem State.setTick_addr (new : Tick) (s : State) :
    (s.setTick new).addr = s.addr := rfl
@[simp] theorem State.setTick_rate (new : Tick) (s : State) :
    (s.setTick new).rate = s.rate := rfl
@[simp] theorem State.setTick_params (new : Tick) (s : State) :
    (s.setTick new).params = s.params := rfl
@[simp] theorem State.setTick_fingerprint (new : Tick) (s : State) :
    (s.setTick new).fingerprint = s.fingerprint := rfl
@[simp] theorem State.setTick_tick (new : Tick) (s : State) :
    (s.setTick new).tick = new := rfl
@[simp] theorem State.setTick_armed (new : Tick) (s : State) :
    (s.setTick new).armed = s.armed := rfl
@[simp] theorem State.setTick_lastClaimed (new : Tick) (s : State) :
    (s.setTick new).lastClaimed = none := rfl
@[simp] theorem State.setTick_tx (new : Tick) (s : State) :
    (s.setTick new).tx = s.tx := rfl
@[simp] theorem State.setTick_rx (new : Tick) (s : State) :
    (s.setTick new).rx = s.rx := rfl
@[simp] theorem State.setTick_rxRecessive (new : Tick) (s : State) :
    (s.setTick new).rxRecessive = s.rxRecessive := rfl
@[simp] theorem State.setTick_table (new : Tick) (s : State) :
    (s.setTick new).table = s.table := rfl
@[simp] theorem State.setTick_stepState (new : Tick) (s : State) :
    (s.setTick new).stepState = s.stepState := rfl
@[simp] theorem State.setTick_listeningEnd (new : Tick) (s : State) :
    (s.setTick new).listeningEnd = s.listeningEnd.map (rebase s.tick new) := rfl
@[simp] theorem State.setTick_streak (new : Tick) (s : State) :
    (s.setTick new).streak = s.streak := rfl
@[simp] theorem State.setTick_roster (new : Tick) (s : State) :
    (s.setTick new).roster = s.roster.update (fun _ e => e.rebase new) := rfl
@[simp] theorem State.setTick_lastSent (new : Tick) (s : State) :
    (s.setTick new).lastSent = new := rfl
@[simp] theorem State.setTick_requester (new : Tick) (s : State) :
    (s.setTick new).requester = { s.requester with phase := s.requester.phase.rebase s.tick new } := rfl
@[simp] theorem State.setTick_responder (new : Tick) (s : State) :
    (s.setTick new).responder = { s.responder with phase := s.responder.phase.rebase s.tick new } := rfl
@[simp] theorem State.setTick_orders (new : Tick) (s : State) :
    (s.setTick new).orders = s.orders := rfl
@[simp] theorem State.setTick_port (new : Tick) (s : State) :
    (s.setTick new).port = s.port := rfl
@[simp] theorem State.setTick_stage (new : Tick) (s : State) :
    (s.setTick new).stage = s.stage := rfl
@[simp] theorem State.setTick_flags (new : Tick) (s : State) :
    (s.setTick new).flags = s.flags := rfl
@[simp] theorem State.setTick_attention (new : Tick) (s : State) :
    (s.setTick new).attention = s.attention := rfl
@[simp] theorem State.setTick_counters (new : Tick) (s : State) :
    (s.setTick new).counters = s.counters := rfl
@[simp] theorem State.setTick_pending (new : Tick) (s : State) :
    (s.setTick new).pending = s.pending := rfl

/-! ### State.respond -/

@[simp] theorem State.respond_inReset (r : Result) (data : List Byte) (c : Commit) (s : State) :
    (s.respond r data c).inReset = s.inReset := rfl
@[simp] theorem State.respond_csnHigh (r : Result) (data : List Byte) (c : Commit) (s : State) :
    (s.respond r data c).csnHigh = s.csnHigh := rfl
@[simp] theorem State.respond_addr (r : Result) (data : List Byte) (c : Commit) (s : State) :
    (s.respond r data c).addr = s.addr := rfl
@[simp] theorem State.respond_rate (r : Result) (data : List Byte) (c : Commit) (s : State) :
    (s.respond r data c).rate = s.rate := rfl
@[simp] theorem State.respond_params (r : Result) (data : List Byte) (c : Commit) (s : State) :
    (s.respond r data c).params = s.params := rfl
@[simp] theorem State.respond_fingerprint (r : Result) (data : List Byte) (c : Commit) (s : State) :
    (s.respond r data c).fingerprint = s.fingerprint := rfl
@[simp] theorem State.respond_tick (r : Result) (data : List Byte) (c : Commit) (s : State) :
    (s.respond r data c).tick = s.tick := rfl
@[simp] theorem State.respond_armed (r : Result) (data : List Byte) (c : Commit) (s : State) :
    (s.respond r data c).armed = s.armed := rfl
@[simp] theorem State.respond_lastClaimed (r : Result) (data : List Byte) (c : Commit) (s : State) :
    (s.respond r data c).lastClaimed = s.lastClaimed := rfl
@[simp] theorem State.respond_tx (r : Result) (data : List Byte) (c : Commit) (s : State) :
    (s.respond r data c).tx = s.tx := rfl
@[simp] theorem State.respond_rx (r : Result) (data : List Byte) (c : Commit) (s : State) :
    (s.respond r data c).rx = s.rx := rfl
@[simp] theorem State.respond_rxRecessive (r : Result) (data : List Byte) (c : Commit) (s : State) :
    (s.respond r data c).rxRecessive = s.rxRecessive := rfl
@[simp] theorem State.respond_table (r : Result) (data : List Byte) (c : Commit) (s : State) :
    (s.respond r data c).table = s.table := rfl
@[simp] theorem State.respond_stepState (r : Result) (data : List Byte) (c : Commit) (s : State) :
    (s.respond r data c).stepState = s.stepState := rfl
@[simp] theorem State.respond_listeningEnd (r : Result) (data : List Byte) (c : Commit) (s : State) :
    (s.respond r data c).listeningEnd = s.listeningEnd := rfl
@[simp] theorem State.respond_streak (r : Result) (data : List Byte) (c : Commit) (s : State) :
    (s.respond r data c).streak = s.streak := rfl
@[simp] theorem State.respond_roster (r : Result) (data : List Byte) (c : Commit) (s : State) :
    (s.respond r data c).roster = s.roster := rfl
@[simp] theorem State.respond_lastSent (r : Result) (data : List Byte) (c : Commit) (s : State) :
    (s.respond r data c).lastSent = s.lastSent := rfl
@[simp] theorem State.respond_requester (r : Result) (data : List Byte) (c : Commit) (s : State) :
    (s.respond r data c).requester = s.requester := rfl
@[simp] theorem State.respond_responder (r : Result) (data : List Byte) (c : Commit) (s : State) :
    (s.respond r data c).responder = s.responder := rfl
@[simp] theorem State.respond_orders (r : Result) (data : List Byte) (c : Commit) (s : State) :
    (s.respond r data c).orders = s.orders := rfl
@[simp] theorem State.respond_port (r : Result) (data : List Byte) (c : Commit) (s : State) :
    (s.respond r data c).port = { txn := .response, shifted := [], response := s.statusByte :: r.code :: data, commit := c, carried := s.attention, fresh := false, statusOut := false } := rfl
@[simp] theorem State.respond_stage (r : Result) (data : List Byte) (c : Commit) (s : State) :
    (s.respond r data c).stage = s.stage := rfl
@[simp] theorem State.respond_flags (r : Result) (data : List Byte) (c : Commit) (s : State) :
    (s.respond r data c).flags = s.flags := rfl
@[simp] theorem State.respond_attention (r : Result) (data : List Byte) (c : Commit) (s : State) :
    (s.respond r data c).attention = s.attention := rfl
@[simp] theorem State.respond_counters (r : Result) (data : List Byte) (c : Commit) (s : State) :
    (s.respond r data c).counters = s.counters := rfl
@[simp] theorem State.respond_pending (r : Result) (data : List Byte) (c : Commit) (s : State) :
    (s.respond r data c).pending = s.pending := rfl

end Sys2Proof.Machine
end

