-- ==== Sys2Proof/Laws/Frames.lean ====
section
/-! SUPPORT. The frame of every shared operation: all that it leaves alone, as one conjunction that `simp`
reads field by field. -/

namespace Sys2Proof.Machine

/-! ### The transmitter -/

@[simp] theorem Transmitter.admitEntry_frame (b : Body) (t : Transmitter) :
    (t.admitEntry b).deferred = t.deferred ∧ (t.admitEntry b).onLine = t.onLine ∧ (t.admitEntry
      b).breaking = t.breaking ∧ (t.admitEntry b).discards = t.discards ∧ (t.admitEntry b).yielding
      = t.yielding ∧ (t.admitEntry b).recessive = t.recessive := by
  simp [Transmitter.admitEntry]

@[simp] theorem Transmitter.offer_frame (b : Body) (t : Transmitter) :
    (t.offer b).onLine = t.onLine ∧ (t.offer b).breaking = t.breaking ∧ (t.offer b).discards =
      t.discards ∧ (t.offer b).yielding = t.yielding ∧ (t.offer b).recessive = t.recessive := by
  unfold Transmitter.offer; (repeat' split) <;> simp

@[simp] theorem Transmitter.admitDeferred_frame (t : Transmitter) :
    (t.admitDeferred).onLine = t.onLine ∧ (t.admitDeferred).breaking = t.breaking ∧
      (t.admitDeferred).discards = t.discards ∧ (t.admitDeferred).yielding = t.yielding ∧
      (t.admitDeferred).recessive = t.recessive := by
  simp [Transmitter.admitDeferred]

@[simp] theorem Transmitter.withdraw_frame (p : Body → Bool) (t : Transmitter) :
    (t.withdraw p).onLine = t.onLine ∧ (t.withdraw p).breaking = t.breaking ∧ (t.withdraw
      p).discards = t.discards ∧ (t.withdraw p).yielding = t.yielding ∧ (t.withdraw p).recessive =
      t.recessive := by
  simp [Transmitter.withdraw]

@[simp] theorem Transmitter.dropSending_frame (t : Transmitter) :
    (t.dropSending).breaking = t.breaking ∧ (t.dropSending).discards = t.discards ∧
      (t.dropSending).yielding = t.yielding ∧ (t.dropSending).recessive = t.recessive ∧
      (t.dropSending).onLine = none := by
  simp [Transmitter.dropSending]

@[simp] theorem Transmitter.returnSending_frame (f : Entry → Entry) (t : Transmitter) :
    (t.returnSending f).breaking = t.breaking ∧ (t.returnSending f).discards = t.discards ∧
      (t.returnSending f).yielding = t.yielding ∧ (t.returnSending f).recessive = t.recessive ∧
      (t.returnSending f).onLine = none := by
  simp [Transmitter.returnSending]

@[simp] theorem Transmitter.scheduleCloses_frame (now : Tick) (rs : List EventRecord) (t : Transmitter) :
    (Transmitter.scheduleCloses now rs t).deferred = t.deferred ∧ (Transmitter.scheduleCloses now
      rs t).onLine = t.onLine ∧ (Transmitter.scheduleCloses now rs t).breaking = t.breaking ∧
      (Transmitter.scheduleCloses now rs t).discards = t.discards ∧ (Transmitter.scheduleCloses now
      rs t).yielding = t.yielding ∧ (Transmitter.scheduleCloses now rs t).recessive = t.recessive := by
  induction rs generalizing t with
  | nil => simp [Transmitter.scheduleCloses]
  | cons r rs ih => unfold Transmitter.scheduleCloses; split <;> simp [ih]

/-! ### Sys2Proof/Machine/Ops.lean -/

@[simp] theorem State.setFlagIf_frame (b : Bool) (f : Flag) (s : State) :
    (s.setFlagIf b f).inReset = s.inReset ∧ (s.setFlagIf b f).csnHigh = s.csnHigh ∧ (s.setFlagIf b
      f).addr = s.addr ∧ (s.setFlagIf b f).rate = s.rate ∧ (s.setFlagIf b f).params = s.params ∧
      (s.setFlagIf b f).fingerprint = s.fingerprint ∧ (s.setFlagIf b f).tick = s.tick ∧ (s.setFlagIf
      b f).armed = s.armed ∧ (s.setFlagIf b f).lastClaimed = s.lastClaimed ∧ (s.setFlagIf b f).tx =
      s.tx ∧ (s.setFlagIf b f).rx = s.rx ∧ (s.setFlagIf b f).rxRecessive = s.rxRecessive ∧
      (s.setFlagIf b f).table = s.table ∧ (s.setFlagIf b f).stepState = s.stepState ∧ (s.setFlagIf b
      f).listeningEnd = s.listeningEnd ∧ (s.setFlagIf b f).streak = s.streak ∧ (s.setFlagIf b
      f).roster = s.roster ∧ (s.setFlagIf b f).lastSent = s.lastSent ∧ (s.setFlagIf b f).requester =
      s.requester ∧ (s.setFlagIf b f).responder = s.responder ∧ (s.setFlagIf b f).orders = s.orders
      ∧ (s.setFlagIf b f).stage = s.stage ∧ (s.setFlagIf b f).counters = s.counters ∧ (s.setFlagIf b
      f).pending = s.pending ∧ (s.setFlagIf b f).port.txn = s.port.txn ∧ (s.setFlagIf b
      f).port.shifted = s.port.shifted ∧ (s.setFlagIf b f).port.response = s.port.response ∧
      (s.setFlagIf b f).port.commit = s.port.commit ∧ (s.setFlagIf b f).port.carried =
      s.port.carried ∧ (s.setFlagIf b f).port.statusOut = s.port.statusOut := by
  simp [State.setFlagIf]

@[simp] theorem State.lineBusy_frame (s : State) :
    s.lineBusy.inReset = s.inReset ∧ s.lineBusy.csnHigh = s.csnHigh ∧ s.lineBusy.addr = s.addr ∧
      s.lineBusy.rate = s.rate ∧ s.lineBusy.params = s.params ∧ s.lineBusy.fingerprint =
      s.fingerprint ∧ s.lineBusy.tick = s.tick ∧ s.lineBusy.armed = s.armed ∧ s.lineBusy.lastClaimed
      = s.lastClaimed ∧ s.lineBusy.rx = s.rx ∧ s.lineBusy.table = s.table ∧ s.lineBusy.stepState =
      s.stepState ∧ s.lineBusy.listeningEnd = s.listeningEnd ∧ s.lineBusy.streak = s.streak ∧
      s.lineBusy.roster = s.roster ∧ s.lineBusy.lastSent = s.lastSent ∧ s.lineBusy.requester =
      s.requester ∧ s.lineBusy.responder = s.responder ∧ s.lineBusy.orders = s.orders ∧
      s.lineBusy.port = s.port ∧ s.lineBusy.stage = s.stage ∧ s.lineBusy.flags = s.flags ∧
      s.lineBusy.attention = s.attention ∧ s.lineBusy.counters = s.counters ∧ s.lineBusy.pending =
      s.pending := by
  simp [State.lineBusy]

@[simp] theorem State.lineRecessive_frame (n : Nat) (s : State) :
    (s.lineRecessive n).inReset = s.inReset ∧ (s.lineRecessive n).csnHigh = s.csnHigh ∧
      (s.lineRecessive n).addr = s.addr ∧ (s.lineRecessive n).rate = s.rate ∧ (s.lineRecessive
      n).params = s.params ∧ (s.lineRecessive n).fingerprint = s.fingerprint ∧ (s.lineRecessive
      n).tick = s.tick ∧ (s.lineRecessive n).armed = s.armed ∧ (s.lineRecessive n).lastClaimed =
      s.lastClaimed ∧ (s.lineRecessive n).rx = s.rx ∧ (s.lineRecessive n).table = s.table ∧
      (s.lineRecessive n).stepState = s.stepState ∧ (s.lineRecessive n).listeningEnd =
      s.listeningEnd ∧ (s.lineRecessive n).streak = s.streak ∧ (s.lineRecessive n).roster = s.roster
      ∧ (s.lineRecessive n).lastSent = s.lastSent ∧ (s.lineRecessive n).requester = s.requester ∧
      (s.lineRecessive n).responder = s.responder ∧ (s.lineRecessive n).orders = s.orders ∧
      (s.lineRecessive n).port = s.port ∧ (s.lineRecessive n).stage = s.stage ∧ (s.lineRecessive
      n).flags = s.flags ∧ (s.lineRecessive n).attention = s.attention ∧ (s.lineRecessive
      n).counters = s.counters ∧ (s.lineRecessive n).pending = s.pending := by
  simp [State.lineRecessive]

@[simp] theorem State.offerOrder_frame (o : Order) (s : State) :
    (s.offerOrder o).inReset = s.inReset ∧ (s.offerOrder o).csnHigh = s.csnHigh ∧ (s.offerOrder
      o).addr = s.addr ∧ (s.offerOrder o).rate = s.rate ∧ (s.offerOrder o).params = s.params ∧
      (s.offerOrder o).fingerprint = s.fingerprint ∧ (s.offerOrder o).tick = s.tick ∧ (s.offerOrder
      o).armed = s.armed ∧ (s.offerOrder o).lastClaimed = s.lastClaimed ∧ (s.offerOrder o).tx = s.tx
      ∧ (s.offerOrder o).rx = s.rx ∧ (s.offerOrder o).rxRecessive = s.rxRecessive ∧ (s.offerOrder
      o).table = s.table ∧ (s.offerOrder o).stepState = s.stepState ∧ (s.offerOrder o).listeningEnd
      = s.listeningEnd ∧ (s.offerOrder o).streak = s.streak ∧ (s.offerOrder o).roster = s.roster ∧
      (s.offerOrder o).lastSent = s.lastSent ∧ (s.offerOrder o).requester = s.requester ∧
      (s.offerOrder o).responder = s.responder ∧ (s.offerOrder o).stage = s.stage ∧ (s.offerOrder
      o).pending = s.pending ∧ (s.offerOrder o).port.txn = s.port.txn ∧ (s.offerOrder
      o).port.shifted = s.port.shifted ∧ (s.offerOrder o).port.response = s.port.response ∧
      (s.offerOrder o).port.commit = s.port.commit ∧ (s.offerOrder o).port.carried = s.port.carried
      ∧ (s.offerOrder o).port.statusOut = s.port.statusOut := by
  unfold State.offerOrder; (repeat' split) <;> simp

@[simp] theorem State.flushOrders_frame (s : State) :
    s.flushOrders.inReset = s.inReset ∧ s.flushOrders.csnHigh = s.csnHigh ∧ s.flushOrders.addr =
      s.addr ∧ s.flushOrders.rate = s.rate ∧ s.flushOrders.params = s.params ∧
      s.flushOrders.fingerprint = s.fingerprint ∧ s.flushOrders.tick = s.tick ∧ s.flushOrders.armed
      = s.armed ∧ s.flushOrders.lastClaimed = s.lastClaimed ∧ s.flushOrders.tx = s.tx ∧
      s.flushOrders.rx = s.rx ∧ s.flushOrders.rxRecessive = s.rxRecessive ∧ s.flushOrders.table =
      s.table ∧ s.flushOrders.stepState = s.stepState ∧ s.flushOrders.listeningEnd = s.listeningEnd
      ∧ s.flushOrders.streak = s.streak ∧ s.flushOrders.roster = s.roster ∧ s.flushOrders.lastSent =
      s.lastSent ∧ s.flushOrders.requester = s.requester ∧ s.flushOrders.responder = s.responder ∧
      s.flushOrders.stage = s.stage ∧ s.flushOrders.counters = s.counters ∧ s.flushOrders.pending =
      s.pending ∧ s.flushOrders.port.txn = s.port.txn ∧ s.flushOrders.port.shifted = s.port.shifted
      ∧ s.flushOrders.port.response = s.port.response ∧ s.flushOrders.port.commit = s.port.commit ∧
      s.flushOrders.port.carried = s.port.carried ∧ s.flushOrders.port.statusOut = s.port.statusOut := by
  simp [State.flushOrders]

/-! ### Sys2Proof/Machine/Engine.lean -/

@[simp] theorem State.scheduleCloses_frame (s : State) :
    s.scheduleCloses.inReset = s.inReset ∧ s.scheduleCloses.csnHigh = s.csnHigh ∧
      s.scheduleCloses.addr = s.addr ∧ s.scheduleCloses.rate = s.rate ∧ s.scheduleCloses.params =
      s.params ∧ s.scheduleCloses.fingerprint = s.fingerprint ∧ s.scheduleCloses.tick = s.tick ∧
      s.scheduleCloses.armed = s.armed ∧ s.scheduleCloses.lastClaimed = s.lastClaimed ∧
      s.scheduleCloses.rx = s.rx ∧ s.scheduleCloses.rxRecessive = s.rxRecessive ∧
      s.scheduleCloses.table = s.table ∧ s.scheduleCloses.stepState = s.stepState ∧
      s.scheduleCloses.listeningEnd = s.listeningEnd ∧ s.scheduleCloses.streak = s.streak ∧
      s.scheduleCloses.roster = s.roster ∧ s.scheduleCloses.lastSent = s.lastSent ∧
      s.scheduleCloses.requester = s.requester ∧ s.scheduleCloses.responder = s.responder ∧
      s.scheduleCloses.orders = s.orders ∧ s.scheduleCloses.port = s.port ∧ s.scheduleCloses.stage =
      s.stage ∧ s.scheduleCloses.flags = s.flags ∧ s.scheduleCloses.attention = s.attention ∧
      s.scheduleCloses.counters = s.counters ∧ s.scheduleCloses.pending = s.pending ∧
      s.scheduleCloses.tx.onLine = s.tx.onLine ∧ s.scheduleCloses.tx.breaking = s.tx.breaking ∧
      s.scheduleCloses.tx.discards = s.tx.discards ∧ s.scheduleCloses.tx.yielding = s.tx.yielding ∧
      s.scheduleCloses.tx.recessive = s.tx.recessive := by
  simp only [State.scheduleCloses]; split <;> simp

@[simp] theorem State.dropDues_frame (s : State) :
    s.dropDues.inReset = s.inReset ∧ s.dropDues.csnHigh = s.csnHigh ∧ s.dropDues.addr = s.addr ∧
      s.dropDues.rate = s.rate ∧ s.dropDues.params = s.params ∧ s.dropDues.fingerprint =
      s.fingerprint ∧ s.dropDues.tick = s.tick ∧ s.dropDues.armed = s.armed ∧ s.dropDues.lastClaimed
      = s.lastClaimed ∧ s.dropDues.tx = s.tx ∧ s.dropDues.rx = s.rx ∧ s.dropDues.rxRecessive =
      s.rxRecessive ∧ s.dropDues.stepState = s.stepState ∧ s.dropDues.listeningEnd = s.listeningEnd
      ∧ s.dropDues.streak = s.streak ∧ s.dropDues.roster = s.roster ∧ s.dropDues.lastSent =
      s.lastSent ∧ s.dropDues.requester = s.requester ∧ s.dropDues.responder = s.responder ∧
      s.dropDues.orders = s.orders ∧ s.dropDues.port = s.port ∧ s.dropDues.stage = s.stage ∧
      s.dropDues.flags = s.flags ∧ s.dropDues.attention = s.attention ∧ s.dropDues.counters =
      s.counters ∧ s.dropDues.pending = s.pending := by
  simp [State.dropDues]

@[simp] theorem State.computeDues_frame (s : State) :
    s.computeDues.inReset = s.inReset ∧ s.computeDues.csnHigh = s.csnHigh ∧ s.computeDues.addr =
      s.addr ∧ s.computeDues.rate = s.rate ∧ s.computeDues.params = s.params ∧
      s.computeDues.fingerprint = s.fingerprint ∧ s.computeDues.tick = s.tick ∧ s.computeDues.armed
      = s.armed ∧ s.computeDues.lastClaimed = s.lastClaimed ∧ s.computeDues.rx = s.rx ∧
      s.computeDues.rxRecessive = s.rxRecessive ∧ s.computeDues.stepState = s.stepState ∧
      s.computeDues.listeningEnd = s.listeningEnd ∧ s.computeDues.streak = s.streak ∧
      s.computeDues.roster = s.roster ∧ s.computeDues.lastSent = s.lastSent ∧
      s.computeDues.requester = s.requester ∧ s.computeDues.responder = s.responder ∧
      s.computeDues.orders = s.orders ∧ s.computeDues.port = s.port ∧ s.computeDues.stage = s.stage
      ∧ s.computeDues.flags = s.flags ∧ s.computeDues.attention = s.attention ∧
      s.computeDues.counters = s.counters ∧ s.computeDues.pending = s.pending ∧
      s.computeDues.tx.onLine = s.tx.onLine ∧ s.computeDues.tx.breaking = s.tx.breaking ∧
      s.computeDues.tx.discards = s.tx.discards ∧ s.computeDues.tx.yielding = s.tx.yielding ∧
      s.computeDues.tx.recessive = s.tx.recessive := by
  simp [State.computeDues]

@[simp] theorem State.applyClaim_frame (a : Addr) (stamp : Tick) (epoch : Byte) (s : State) :
    (s.applyClaim a stamp epoch).inReset = s.inReset ∧ (s.applyClaim a stamp epoch).csnHigh =
      s.csnHigh ∧ (s.applyClaim a stamp epoch).addr = s.addr ∧ (s.applyClaim a stamp epoch).rate =
      s.rate ∧ (s.applyClaim a stamp epoch).params = s.params ∧ (s.applyClaim a stamp
      epoch).fingerprint = s.fingerprint ∧ (s.applyClaim a stamp epoch).tick = s.tick ∧
      (s.applyClaim a stamp epoch).armed = s.armed ∧ (s.applyClaim a stamp epoch).lastClaimed =
      s.lastClaimed ∧ (s.applyClaim a stamp epoch).rx = s.rx ∧ (s.applyClaim a stamp
      epoch).rxRecessive = s.rxRecessive ∧ (s.applyClaim a stamp epoch).stepState = s.stepState ∧
      (s.applyClaim a stamp epoch).listeningEnd = s.listeningEnd ∧ (s.applyClaim a stamp
      epoch).streak = s.streak ∧ (s.applyClaim a stamp epoch).roster = s.roster ∧ (s.applyClaim a
      stamp epoch).lastSent = s.lastSent ∧ (s.applyClaim a stamp epoch).requester = s.requester ∧
      (s.applyClaim a stamp epoch).responder = s.responder ∧ (s.applyClaim a stamp epoch).orders =
      s.orders ∧ (s.applyClaim a stamp epoch).port = s.port ∧ (s.applyClaim a stamp epoch).stage =
      s.stage ∧ (s.applyClaim a stamp epoch).flags = s.flags ∧ (s.applyClaim a stamp
      epoch).attention = s.attention ∧ (s.applyClaim a stamp epoch).counters = s.counters ∧
      (s.applyClaim a stamp epoch).pending = s.pending ∧ (s.applyClaim a stamp epoch).tx.onLine =
      s.tx.onLine ∧ (s.applyClaim a stamp epoch).tx.breaking = s.tx.breaking ∧ (s.applyClaim a stamp
      epoch).tx.discards = s.tx.discards ∧ (s.applyClaim a stamp epoch).tx.yielding = s.tx.yielding
      ∧ (s.applyClaim a stamp epoch).tx.recessive = s.tx.recessive := by
  unfold State.applyClaim; dsimp only; (repeat' split) <;> simp

@[simp] theorem State.applyClose_frame (a : Addr) (n : Half) (s : State) :
    (s.applyClose a n).inReset = s.inReset ∧ (s.applyClose a n).csnHigh = s.csnHigh ∧
      (s.applyClose a n).addr = s.addr ∧ (s.applyClose a n).rate = s.rate ∧ (s.applyClose a
      n).params = s.params ∧ (s.applyClose a n).fingerprint = s.fingerprint ∧ (s.applyClose a
      n).tick = s.tick ∧ (s.applyClose a n).armed = s.armed ∧ (s.applyClose a n).lastClaimed =
      s.lastClaimed ∧ (s.applyClose a n).rx = s.rx ∧ (s.applyClose a n).rxRecessive = s.rxRecessive
      ∧ (s.applyClose a n).stepState = s.stepState ∧ (s.applyClose a n).listeningEnd =
      s.listeningEnd ∧ (s.applyClose a n).streak = s.streak ∧ (s.applyClose a n).roster = s.roster ∧
      (s.applyClose a n).lastSent = s.lastSent ∧ (s.applyClose a n).requester = s.requester ∧
      (s.applyClose a n).responder = s.responder ∧ (s.applyClose a n).stage = s.stage ∧
      (s.applyClose a n).pending = s.pending ∧ (s.applyClose a n).port.txn = s.port.txn ∧
      (s.applyClose a n).port.shifted = s.port.shifted ∧ (s.applyClose a n).port.response =
      s.port.response ∧ (s.applyClose a n).port.commit = s.port.commit ∧ (s.applyClose a
      n).port.carried = s.port.carried ∧ (s.applyClose a n).port.statusOut = s.port.statusOut ∧
      (s.applyClose a n).tx.onLine = s.tx.onLine ∧ (s.applyClose a n).tx.breaking = s.tx.breaking ∧
      (s.applyClose a n).tx.discards = s.tx.discards ∧ (s.applyClose a n).tx.yielding =
      s.tx.yielding ∧ (s.applyClose a n).tx.recessive = s.tx.recessive := by
  unfold State.applyClose; dsimp only; (repeat' split) <;> simp

@[simp] theorem State.applyEpoch_frame (a : Addr) (s : State) :
    (s.applyEpoch a).inReset = s.inReset ∧ (s.applyEpoch a).csnHigh = s.csnHigh ∧ (s.applyEpoch
      a).addr = s.addr ∧ (s.applyEpoch a).rate = s.rate ∧ (s.applyEpoch a).params = s.params ∧
      (s.applyEpoch a).fingerprint = s.fingerprint ∧ (s.applyEpoch a).tick = s.tick ∧ (s.applyEpoch
      a).armed = s.armed ∧ (s.applyEpoch a).lastClaimed = s.lastClaimed ∧ (s.applyEpoch a).rx = s.rx
      ∧ (s.applyEpoch a).rxRecessive = s.rxRecessive ∧ (s.applyEpoch a).stepState = s.stepState ∧
      (s.applyEpoch a).listeningEnd = s.listeningEnd ∧ (s.applyEpoch a).streak = s.streak ∧
      (s.applyEpoch a).roster = s.roster ∧ (s.applyEpoch a).lastSent = s.lastSent ∧ (s.applyEpoch
      a).requester = s.requester ∧ (s.applyEpoch a).responder = s.responder ∧ (s.applyEpoch
      a).orders = s.orders ∧ (s.applyEpoch a).port = s.port ∧ (s.applyEpoch a).stage = s.stage ∧
      (s.applyEpoch a).flags = s.flags ∧ (s.applyEpoch a).attention = s.attention ∧ (s.applyEpoch
      a).pending = s.pending ∧ (s.applyEpoch a).tx.onLine = s.tx.onLine ∧ (s.applyEpoch
      a).tx.breaking = s.tx.breaking ∧ (s.applyEpoch a).tx.discards = s.tx.discards ∧ (s.applyEpoch
      a).tx.yielding = s.tx.yielding ∧ (s.applyEpoch a).tx.recessive = s.tx.recessive := by
  unfold State.applyEpoch; dsimp only; (repeat' split) <;> simp

@[simp] theorem State.applyFrame_frame (a : Addr) (body : Sequenced) (s : State) :
    (s.applyFrame a body).inReset = s.inReset ∧ (s.applyFrame a body).csnHigh = s.csnHigh ∧
      (s.applyFrame a body).addr = s.addr ∧ (s.applyFrame a body).rate = s.rate ∧ (s.applyFrame a
      body).params = s.params ∧ (s.applyFrame a body).fingerprint = s.fingerprint ∧ (s.applyFrame a
      body).tick = s.tick ∧ (s.applyFrame a body).armed = s.armed ∧ (s.applyFrame a
      body).lastClaimed = s.lastClaimed ∧ (s.applyFrame a body).rx = s.rx ∧ (s.applyFrame a
      body).rxRecessive = s.rxRecessive ∧ (s.applyFrame a body).stepState = s.stepState ∧
      (s.applyFrame a body).listeningEnd = s.listeningEnd ∧ (s.applyFrame a body).streak = s.streak
      ∧ (s.applyFrame a body).roster = s.roster ∧ (s.applyFrame a body).lastSent = s.lastSent ∧
      (s.applyFrame a body).requester = s.requester ∧ (s.applyFrame a body).responder = s.responder
      ∧ (s.applyFrame a body).stage = s.stage ∧ (s.applyFrame a body).pending = s.pending ∧
      (s.applyFrame a body).port.txn = s.port.txn ∧ (s.applyFrame a body).port.shifted =
      s.port.shifted ∧ (s.applyFrame a body).port.response = s.port.response ∧ (s.applyFrame a
      body).port.commit = s.port.commit ∧ (s.applyFrame a body).port.carried = s.port.carried ∧
      (s.applyFrame a body).port.statusOut = s.port.statusOut ∧ (s.applyFrame a body).tx.onLine =
      s.tx.onLine ∧ (s.applyFrame a body).tx.breaking = s.tx.breaking ∧ (s.applyFrame a
      body).tx.discards = s.tx.discards ∧ (s.applyFrame a body).tx.yielding = s.tx.yielding ∧
      (s.applyFrame a body).tx.recessive = s.tx.recessive := by
  cases body <;> simp [State.applyFrame]

@[simp] theorem State.abandonResponder_frame (s : State) :
    s.abandonResponder.inReset = s.inReset ∧ s.abandonResponder.csnHigh = s.csnHigh ∧
      s.abandonResponder.addr = s.addr ∧ s.abandonResponder.rate = s.rate ∧
      s.abandonResponder.params = s.params ∧ s.abandonResponder.fingerprint = s.fingerprint ∧
      s.abandonResponder.tick = s.tick ∧ s.abandonResponder.armed = s.armed ∧
      s.abandonResponder.lastClaimed = s.lastClaimed ∧ s.abandonResponder.rx = s.rx ∧
      s.abandonResponder.rxRecessive = s.rxRecessive ∧ s.abandonResponder.table = s.table ∧
      s.abandonResponder.stepState = s.stepState ∧ s.abandonResponder.listeningEnd = s.listeningEnd
      ∧ s.abandonResponder.streak = s.streak ∧ s.abandonResponder.roster = s.roster ∧
      s.abandonResponder.lastSent = s.lastSent ∧ s.abandonResponder.requester = s.requester ∧
      s.abandonResponder.orders = s.orders ∧ s.abandonResponder.port = s.port ∧
      s.abandonResponder.stage = s.stage ∧ s.abandonResponder.flags = s.flags ∧
      s.abandonResponder.attention = s.attention ∧ s.abandonResponder.pending = s.pending ∧
      s.abandonResponder.tx.onLine = s.tx.onLine ∧ s.abandonResponder.tx.breaking = s.tx.breaking ∧
      s.abandonResponder.tx.discards = s.tx.discards ∧ s.abandonResponder.tx.yielding =
      s.tx.yielding ∧ s.abandonResponder.tx.recessive = s.tx.recessive := by
  simp [State.abandonResponder]

@[simp] theorem State.applyClear_frame (s : State) :
    s.applyClear.inReset = s.inReset ∧ s.applyClear.csnHigh = s.csnHigh ∧ s.applyClear.addr =
      s.addr ∧ s.applyClear.rate = s.rate ∧ s.applyClear.params = s.params ∧
      s.applyClear.fingerprint = s.fingerprint ∧ s.applyClear.tick = s.tick ∧ s.applyClear.armed =
      s.armed ∧ s.applyClear.lastClaimed = s.lastClaimed ∧ s.applyClear.rx = s.rx ∧
      s.applyClear.rxRecessive = s.rxRecessive ∧ s.applyClear.stepState = s.stepState ∧
      s.applyClear.listeningEnd = s.listeningEnd ∧ s.applyClear.roster = s.roster ∧
      s.applyClear.lastSent = s.lastSent ∧ s.applyClear.requester = s.requester ∧ s.applyClear.stage
      = s.stage ∧ s.applyClear.pending = s.pending ∧ s.applyClear.port.txn = s.port.txn ∧
      s.applyClear.port.shifted = s.port.shifted ∧ s.applyClear.port.response = s.port.response ∧
      s.applyClear.port.commit = s.port.commit ∧ s.applyClear.port.carried = s.port.carried ∧
      s.applyClear.port.statusOut = s.port.statusOut ∧ s.applyClear.tx.onLine = s.tx.onLine ∧
      s.applyClear.tx.breaking = s.tx.breaking ∧ s.applyClear.tx.discards = s.tx.discards ∧
      s.applyClear.tx.yielding = s.tx.yielding ∧ s.applyClear.tx.recessive = s.tx.recessive := by
  simp [State.applyClear]

@[simp] theorem State.epochArrival_frame (s : State) :
    s.epochArrival.inReset = s.inReset ∧ s.epochArrival.csnHigh = s.csnHigh ∧ s.epochArrival.addr
      = s.addr ∧ s.epochArrival.rate = s.rate ∧ s.epochArrival.params = s.params ∧
      s.epochArrival.fingerprint = s.fingerprint ∧ s.epochArrival.armed = s.armed ∧
      s.epochArrival.rx = s.rx ∧ s.epochArrival.rxRecessive = s.rxRecessive ∧ s.epochArrival.table =
      s.table ∧ s.epochArrival.stepState = s.stepState ∧ s.epochArrival.streak = s.streak ∧
      s.epochArrival.orders = s.orders ∧ s.epochArrival.port = s.port ∧ s.epochArrival.stage =
      s.stage ∧ s.epochArrival.flags = s.flags ∧ s.epochArrival.attention = s.attention ∧
      s.epochArrival.pending = s.pending ∧ s.epochArrival.tx.onLine = s.tx.onLine ∧
      s.epochArrival.tx.breaking = s.tx.breaking ∧ s.epochArrival.tx.discards = s.tx.discards ∧
      s.epochArrival.tx.yielding = s.tx.yielding ∧ s.epochArrival.tx.recessive = s.tx.recessive := by
  unfold State.epochArrival; (repeat' split) <;> simp

/-! ### Sys2Proof/Machine/Resync.lean -/

@[simp] theorem State.offerRequest_frame (s : State) :
    s.offerRequest.inReset = s.inReset ∧ s.offerRequest.csnHigh = s.csnHigh ∧ s.offerRequest.addr
      = s.addr ∧ s.offerRequest.rate = s.rate ∧ s.offerRequest.params = s.params ∧
      s.offerRequest.fingerprint = s.fingerprint ∧ s.offerRequest.tick = s.tick ∧
      s.offerRequest.armed = s.armed ∧ s.offerRequest.lastClaimed = s.lastClaimed ∧
      s.offerRequest.rx = s.rx ∧ s.offerRequest.rxRecessive = s.rxRecessive ∧ s.offerRequest.table =
      s.table ∧ s.offerRequest.stepState = s.stepState ∧ s.offerRequest.listeningEnd =
      s.listeningEnd ∧ s.offerRequest.streak = s.streak ∧ s.offerRequest.roster = s.roster ∧
      s.offerRequest.lastSent = s.lastSent ∧ s.offerRequest.requester = s.requester ∧
      s.offerRequest.responder = s.responder ∧ s.offerRequest.orders = s.orders ∧
      s.offerRequest.port = s.port ∧ s.offerRequest.stage = s.stage ∧ s.offerRequest.flags = s.flags
      ∧ s.offerRequest.attention = s.attention ∧ s.offerRequest.counters = s.counters ∧
      s.offerRequest.pending = s.pending ∧ s.offerRequest.tx.onLine = s.tx.onLine ∧
      s.offerRequest.tx.breaking = s.tx.breaking ∧ s.offerRequest.tx.discards = s.tx.discards ∧
      s.offerRequest.tx.yielding = s.tx.yielding ∧ s.offerRequest.tx.recessive = s.tx.recessive := by
  simp [State.offerRequest]

@[simp] theorem State.openRequester_frame (s : State) :
    s.openRequester.inReset = s.inReset ∧ s.openRequester.csnHigh = s.csnHigh ∧
      s.openRequester.addr = s.addr ∧ s.openRequester.rate = s.rate ∧ s.openRequester.params =
      s.params ∧ s.openRequester.fingerprint = s.fingerprint ∧ s.openRequester.tick = s.tick ∧
      s.openRequester.armed = s.armed ∧ s.openRequester.lastClaimed = s.lastClaimed ∧
      s.openRequester.rx = s.rx ∧ s.openRequester.rxRecessive = s.rxRecessive ∧
      s.openRequester.table = s.table ∧ s.openRequester.stepState = s.stepState ∧
      s.openRequester.listeningEnd = s.listeningEnd ∧ s.openRequester.streak = s.streak ∧
      s.openRequester.roster = s.roster ∧ s.openRequester.lastSent = s.lastSent ∧
      s.openRequester.responder = s.responder ∧ s.openRequester.orders = s.orders ∧
      s.openRequester.port = s.port ∧ s.openRequester.stage = s.stage ∧ s.openRequester.flags =
      s.flags ∧ s.openRequester.attention = s.attention ∧ s.openRequester.counters = s.counters ∧
      s.openRequester.pending = s.pending ∧ s.openRequester.tx.onLine = s.tx.onLine ∧
      s.openRequester.tx.breaking = s.tx.breaking ∧ s.openRequester.tx.discards = s.tx.discards ∧
      s.openRequester.tx.yielding = s.tx.yielding ∧ s.openRequester.tx.recessive = s.tx.recessive := by
  simp [State.openRequester]

@[simp] theorem State.nextAttempt_frame (s : State) :
    s.nextAttempt.inReset = s.inReset ∧ s.nextAttempt.csnHigh = s.csnHigh ∧ s.nextAttempt.addr =
      s.addr ∧ s.nextAttempt.rate = s.rate ∧ s.nextAttempt.params = s.params ∧
      s.nextAttempt.fingerprint = s.fingerprint ∧ s.nextAttempt.tick = s.tick ∧ s.nextAttempt.armed
      = s.armed ∧ s.nextAttempt.lastClaimed = s.lastClaimed ∧ s.nextAttempt.rx = s.rx ∧
      s.nextAttempt.rxRecessive = s.rxRecessive ∧ s.nextAttempt.table = s.table ∧
      s.nextAttempt.stepState = s.stepState ∧ s.nextAttempt.listeningEnd = s.listeningEnd ∧
      s.nextAttempt.streak = s.streak ∧ s.nextAttempt.roster = s.roster ∧ s.nextAttempt.lastSent =
      s.lastSent ∧ s.nextAttempt.responder = s.responder ∧ s.nextAttempt.orders = s.orders ∧
      s.nextAttempt.port = s.port ∧ s.nextAttempt.stage = s.stage ∧ s.nextAttempt.flags = s.flags ∧
      s.nextAttempt.attention = s.attention ∧ s.nextAttempt.counters = s.counters ∧
      s.nextAttempt.pending = s.pending ∧ s.nextAttempt.tx.onLine = s.tx.onLine ∧
      s.nextAttempt.tx.breaking = s.tx.breaking ∧ s.nextAttempt.tx.discards = s.tx.discards ∧
      s.nextAttempt.tx.yielding = s.tx.yielding ∧ s.nextAttempt.tx.recessive = s.tx.recessive := by
  simp [State.nextAttempt]

@[simp] theorem State.selfAssert_frame (s : State) :
    s.selfAssert.inReset = s.inReset ∧ s.selfAssert.csnHigh = s.csnHigh ∧ s.selfAssert.addr =
      s.addr ∧ s.selfAssert.rate = s.rate ∧ s.selfAssert.params = s.params ∧
      s.selfAssert.fingerprint = s.fingerprint ∧ s.selfAssert.tick = s.tick ∧ s.selfAssert.armed =
      s.armed ∧ s.selfAssert.lastClaimed = s.lastClaimed ∧ s.selfAssert.rx = s.rx ∧
      s.selfAssert.rxRecessive = s.rxRecessive ∧ s.selfAssert.listeningEnd = s.listeningEnd ∧
      s.selfAssert.streak = s.streak ∧ s.selfAssert.roster = s.roster ∧ s.selfAssert.lastSent =
      s.lastSent ∧ s.selfAssert.responder = s.responder ∧ s.selfAssert.orders = s.orders ∧
      s.selfAssert.stage = s.stage ∧ s.selfAssert.counters = s.counters ∧ s.selfAssert.pending =
      s.pending ∧ s.selfAssert.port.txn = s.port.txn ∧ s.selfAssert.port.shifted = s.port.shifted ∧
      s.selfAssert.port.response = s.port.response ∧ s.selfAssert.port.commit = s.port.commit ∧
      s.selfAssert.port.carried = s.port.carried ∧ s.selfAssert.port.statusOut = s.port.statusOut ∧
      s.selfAssert.tx.onLine = s.tx.onLine ∧ s.selfAssert.tx.breaking = s.tx.breaking ∧
      s.selfAssert.tx.discards = s.tx.discards ∧ s.selfAssert.tx.yielding = s.tx.yielding ∧
      s.selfAssert.tx.recessive = s.tx.recessive := by
  simp [State.selfAssert]

@[simp] theorem State.fail_frame (k : FailKind) (s : State) :
    (s.fail k).inReset = s.inReset ∧ (s.fail k).csnHigh = s.csnHigh ∧ (s.fail k).addr = s.addr ∧
      (s.fail k).rate = s.rate ∧ (s.fail k).params = s.params ∧ (s.fail k).fingerprint =
      s.fingerprint ∧ (s.fail k).tick = s.tick ∧ (s.fail k).armed = s.armed ∧ (s.fail k).lastClaimed
      = s.lastClaimed ∧ (s.fail k).rx = s.rx ∧ (s.fail k).rxRecessive = s.rxRecessive ∧ (s.fail
      k).listeningEnd = s.listeningEnd ∧ (s.fail k).streak = s.streak ∧ (s.fail k).roster = s.roster
      ∧ (s.fail k).lastSent = s.lastSent ∧ (s.fail k).responder = s.responder ∧ (s.fail k).orders =
      s.orders ∧ (s.fail k).stage = s.stage ∧ (s.fail k).pending = s.pending ∧ (s.fail k).port.txn =
      s.port.txn ∧ (s.fail k).port.shifted = s.port.shifted ∧ (s.fail k).port.response =
      s.port.response ∧ (s.fail k).port.commit = s.port.commit ∧ (s.fail k).port.carried =
      s.port.carried ∧ (s.fail k).port.statusOut = s.port.statusOut ∧ (s.fail k).tx.onLine =
      s.tx.onLine ∧ (s.fail k).tx.breaking = s.tx.breaking ∧ (s.fail k).tx.discards = s.tx.discards
      ∧ (s.fail k).tx.yielding = s.tx.yielding ∧ (s.fail k).tx.recessive = s.tx.recessive := by
  unfold State.fail; dsimp only; (repeat' split) <;> simp

@[simp] theorem State.holdFrame_frame (a : Addr) (body : Sequenced) (n : Half) (s : State) :
    (s.holdFrame a body n).inReset = s.inReset ∧ (s.holdFrame a body n).csnHigh = s.csnHigh ∧
      (s.holdFrame a body n).addr = s.addr ∧ (s.holdFrame a body n).rate = s.rate ∧ (s.holdFrame a
      body n).params = s.params ∧ (s.holdFrame a body n).fingerprint = s.fingerprint ∧ (s.holdFrame
      a body n).tick = s.tick ∧ (s.holdFrame a body n).armed = s.armed ∧ (s.holdFrame a body
      n).lastClaimed = s.lastClaimed ∧ (s.holdFrame a body n).rx = s.rx ∧ (s.holdFrame a body
      n).rxRecessive = s.rxRecessive ∧ (s.holdFrame a body n).listeningEnd = s.listeningEnd ∧
      (s.holdFrame a body n).streak = s.streak ∧ (s.holdFrame a body n).roster = s.roster ∧
      (s.holdFrame a body n).lastSent = s.lastSent ∧ (s.holdFrame a body n).responder = s.responder
      ∧ (s.holdFrame a body n).orders = s.orders ∧ (s.holdFrame a body n).stage = s.stage ∧
      (s.holdFrame a body n).pending = s.pending ∧ (s.holdFrame a body n).port.txn = s.port.txn ∧
      (s.holdFrame a body n).port.shifted = s.port.shifted ∧ (s.holdFrame a body n).port.response =
      s.port.response ∧ (s.holdFrame a body n).port.commit = s.port.commit ∧ (s.holdFrame a body
      n).port.carried = s.port.carried ∧ (s.holdFrame a body n).port.statusOut = s.port.statusOut ∧
      (s.holdFrame a body n).tx.onLine = s.tx.onLine ∧ (s.holdFrame a body n).tx.breaking =
      s.tx.breaking ∧ (s.holdFrame a body n).tx.discards = s.tx.discards ∧ (s.holdFrame a body
      n).tx.yielding = s.tx.yielding ∧ (s.holdFrame a body n).tx.recessive = s.tx.recessive := by
  unfold State.holdFrame; (repeat' split) <;> simp

@[simp] theorem State.clearOutOfStep_frame (tick : Tick) (epoch : Byte) (s : State) :
    (s.clearOutOfStep tick epoch).inReset = s.inReset ∧ (s.clearOutOfStep tick epoch).csnHigh =
      s.csnHigh ∧ (s.clearOutOfStep tick epoch).addr = s.addr ∧ (s.clearOutOfStep tick epoch).rate =
      s.rate ∧ (s.clearOutOfStep tick epoch).params = s.params ∧ (s.clearOutOfStep tick
      epoch).fingerprint = s.fingerprint ∧ (s.clearOutOfStep tick epoch).armed = s.armed ∧
      (s.clearOutOfStep tick epoch).rx = s.rx ∧ (s.clearOutOfStep tick epoch).rxRecessive =
      s.rxRecessive ∧ (s.clearOutOfStep tick epoch).stage = s.stage ∧ (s.clearOutOfStep tick
      epoch).pending = s.pending ∧ (s.clearOutOfStep tick epoch).port.txn = s.port.txn ∧
      (s.clearOutOfStep tick epoch).port.shifted = s.port.shifted ∧ (s.clearOutOfStep tick
      epoch).port.response = s.port.response ∧ (s.clearOutOfStep tick epoch).port.commit =
      s.port.commit ∧ (s.clearOutOfStep tick epoch).port.carried = s.port.carried ∧
      (s.clearOutOfStep tick epoch).port.statusOut = s.port.statusOut ∧ (s.clearOutOfStep tick
      epoch).tx.onLine = s.tx.onLine ∧ (s.clearOutOfStep tick epoch).tx.breaking = s.tx.breaking ∧
      (s.clearOutOfStep tick epoch).tx.discards = s.tx.discards ∧ (s.clearOutOfStep tick
      epoch).tx.yielding = s.tx.yielding ∧ (s.clearOutOfStep tick epoch).tx.recessive =
      s.tx.recessive := by
  simp [State.clearOutOfStep]

@[simp] theorem State.enterConflict_frame (s : State) :
    s.enterConflict.inReset = s.inReset ∧ s.enterConflict.csnHigh = s.csnHigh ∧
      s.enterConflict.addr = s.addr ∧ s.enterConflict.rate = s.rate ∧ s.enterConflict.params =
      s.params ∧ s.enterConflict.fingerprint = s.fingerprint ∧ s.enterConflict.tick = s.tick ∧
      s.enterConflict.armed = s.armed ∧ s.enterConflict.lastClaimed = s.lastClaimed ∧
      s.enterConflict.rx = s.rx ∧ s.enterConflict.rxRecessive = s.rxRecessive ∧
      s.enterConflict.table = s.table ∧ s.enterConflict.listeningEnd = s.listeningEnd ∧
      s.enterConflict.streak = s.streak ∧ s.enterConflict.lastSent = s.lastSent ∧
      s.enterConflict.responder = s.responder ∧ s.enterConflict.orders = s.orders ∧
      s.enterConflict.stage = s.stage ∧ s.enterConflict.pending = s.pending ∧
      s.enterConflict.port.txn = s.port.txn ∧ s.enterConflict.port.shifted = s.port.shifted ∧
      s.enterConflict.port.response = s.port.response ∧ s.enterConflict.port.commit = s.port.commit
      ∧ s.enterConflict.port.carried = s.port.carried ∧ s.enterConflict.port.statusOut =
      s.port.statusOut ∧ s.enterConflict.tx.onLine = s.tx.onLine ∧ s.enterConflict.tx.breaking =
      s.tx.breaking ∧ s.enterConflict.tx.discards = s.tx.discards ∧ s.enterConflict.tx.yielding =
      s.tx.yielding ∧ s.enterConflict.tx.recessive = s.tx.recessive := by
  simp [State.enterConflict]

@[simp] theorem State.takeHeader_frame (a : Addr) (n : Nat) (h : SnapHeader) (tick : Tick) (s : State) :
    (s.takeHeader a n h tick).inReset = s.inReset ∧ (s.takeHeader a n h tick).csnHigh = s.csnHigh
      ∧ (s.takeHeader a n h tick).addr = s.addr ∧ (s.takeHeader a n h tick).rate = s.rate ∧
      (s.takeHeader a n h tick).params = s.params ∧ (s.takeHeader a n h tick).fingerprint =
      s.fingerprint ∧ (s.takeHeader a n h tick).armed = s.armed ∧ (s.takeHeader a n h tick).tx =
      s.tx ∧ (s.takeHeader a n h tick).rx = s.rx ∧ (s.takeHeader a n h tick).rxRecessive =
      s.rxRecessive ∧ (s.takeHeader a n h tick).table = s.table ∧ (s.takeHeader a n h
      tick).stepState = s.stepState ∧ (s.takeHeader a n h tick).streak = s.streak ∧ (s.takeHeader a
      n h tick).orders = s.orders ∧ (s.takeHeader a n h tick).port = s.port ∧ (s.takeHeader a n h
      tick).stage = s.stage ∧ (s.takeHeader a n h tick).flags = s.flags ∧ (s.takeHeader a n h
      tick).attention = s.attention ∧ (s.takeHeader a n h tick).counters = s.counters ∧
      (s.takeHeader a n h tick).pending = s.pending := by
  simp [State.takeHeader]

@[simp] theorem State.applyHeld_frame (fs : List Held) (s : State) :
    (s.applyHeld fs).inReset = s.inReset ∧ (s.applyHeld fs).csnHigh = s.csnHigh ∧ (s.applyHeld
      fs).addr = s.addr ∧ (s.applyHeld fs).rate = s.rate ∧ (s.applyHeld fs).params = s.params ∧
      (s.applyHeld fs).fingerprint = s.fingerprint ∧ (s.applyHeld fs).tick = s.tick ∧ (s.applyHeld
      fs).armed = s.armed ∧ (s.applyHeld fs).lastClaimed = s.lastClaimed ∧ (s.applyHeld fs).rx =
      s.rx ∧ (s.applyHeld fs).rxRecessive = s.rxRecessive ∧ (s.applyHeld fs).stepState = s.stepState
      ∧ (s.applyHeld fs).listeningEnd = s.listeningEnd ∧ (s.applyHeld fs).streak = s.streak ∧
      (s.applyHeld fs).roster = s.roster ∧ (s.applyHeld fs).lastSent = s.lastSent ∧ (s.applyHeld
      fs).requester = s.requester ∧ (s.applyHeld fs).responder = s.responder ∧ (s.applyHeld
      fs).stage = s.stage ∧ (s.applyHeld fs).pending = s.pending ∧ (s.applyHeld fs).port.txn =
      s.port.txn ∧ (s.applyHeld fs).port.shifted = s.port.shifted ∧ (s.applyHeld fs).port.response =
      s.port.response ∧ (s.applyHeld fs).port.commit = s.port.commit ∧ (s.applyHeld fs).port.carried
      = s.port.carried ∧ (s.applyHeld fs).port.statusOut = s.port.statusOut ∧ (s.applyHeld
      fs).tx.onLine = s.tx.onLine ∧ (s.applyHeld fs).tx.breaking = s.tx.breaking ∧ (s.applyHeld
      fs).tx.discards = s.tx.discards ∧ (s.applyHeld fs).tx.yielding = s.tx.yielding ∧ (s.applyHeld
      fs).tx.recessive = s.tx.recessive := by
  induction fs generalizing s with
  | nil => simp [State.applyHeld]
  | cons f fs ih => simp [State.applyHeld, ih]

@[simp] theorem State.install_frame (h : SnapHeader) (rs : List EventRecord) (s : State) :
    (s.install h rs).inReset = s.inReset ∧ (s.install h rs).csnHigh = s.csnHigh ∧ (s.install h
      rs).addr = s.addr ∧ (s.install h rs).rate = s.rate ∧ (s.install h rs).params = s.params ∧
      (s.install h rs).fingerprint = s.fingerprint ∧ (s.install h rs).tick = s.tick ∧ (s.install h
      rs).armed = s.armed ∧ (s.install h rs).lastClaimed = s.lastClaimed ∧ (s.install h rs).rx =
      s.rx ∧ (s.install h rs).rxRecessive = s.rxRecessive ∧ (s.install h rs).listeningEnd =
      s.listeningEnd ∧ (s.install h rs).streak = s.streak ∧ (s.install h rs).roster = s.roster ∧
      (s.install h rs).lastSent = s.lastSent ∧ (s.install h rs).responder = s.responder ∧ (s.install
      h rs).stage = s.stage ∧ (s.install h rs).pending = s.pending ∧ (s.install h rs).port.txn =
      s.port.txn ∧ (s.install h rs).port.shifted = s.port.shifted ∧ (s.install h rs).port.response =
      s.port.response ∧ (s.install h rs).port.commit = s.port.commit ∧ (s.install h rs).port.carried
      = s.port.carried ∧ (s.install h rs).port.statusOut = s.port.statusOut ∧ (s.install h
      rs).tx.onLine = s.tx.onLine ∧ (s.install h rs).tx.breaking = s.tx.breaking ∧ (s.install h
      rs).tx.discards = s.tx.discards ∧ (s.install h rs).tx.yielding = s.tx.yielding ∧ (s.install h
      rs).tx.recessive = s.tx.recessive := by
  unfold State.install; dsimp only; (repeat' split) <;> simp

@[simp] theorem State.examineHeader_frame (a : Addr) (n : Nat) (b : StateBody) (s : State) :
    (s.examineHeader a n b).inReset = s.inReset ∧ (s.examineHeader a n b).csnHigh = s.csnHigh ∧
      (s.examineHeader a n b).addr = s.addr ∧ (s.examineHeader a n b).rate = s.rate ∧
      (s.examineHeader a n b).params = s.params ∧ (s.examineHeader a n b).fingerprint =
      s.fingerprint ∧ (s.examineHeader a n b).armed = s.armed ∧ (s.examineHeader a n b).rx = s.rx ∧
      (s.examineHeader a n b).rxRecessive = s.rxRecessive ∧ (s.examineHeader a n b).streak =
      s.streak ∧ (s.examineHeader a n b).stage = s.stage ∧ (s.examineHeader a n b).pending =
      s.pending ∧ (s.examineHeader a n b).port.txn = s.port.txn ∧ (s.examineHeader a n
      b).port.shifted = s.port.shifted ∧ (s.examineHeader a n b).port.response = s.port.response ∧
      (s.examineHeader a n b).port.commit = s.port.commit ∧ (s.examineHeader a n b).port.carried =
      s.port.carried ∧ (s.examineHeader a n b).port.statusOut = s.port.statusOut ∧ (s.examineHeader
      a n b).tx.onLine = s.tx.onLine ∧ (s.examineHeader a n b).tx.breaking = s.tx.breaking ∧
      (s.examineHeader a n b).tx.discards = s.tx.discards ∧ (s.examineHeader a n b).tx.yielding =
      s.tx.yielding ∧ (s.examineHeader a n b).tx.recessive = s.tx.recessive := by
  unfold State.examineHeader; dsimp only; (repeat' split) <;> simp

@[simp] theorem State.takeChunk_frame (c : Receiving) (n : Nat) (b : StateBody) (s : State) :
    (s.takeChunk c n b).inReset = s.inReset ∧ (s.takeChunk c n b).csnHigh = s.csnHigh ∧
      (s.takeChunk c n b).addr = s.addr ∧ (s.takeChunk c n b).rate = s.rate ∧ (s.takeChunk c n
      b).params = s.params ∧ (s.takeChunk c n b).fingerprint = s.fingerprint ∧ (s.takeChunk c n
      b).tick = s.tick ∧ (s.takeChunk c n b).armed = s.armed ∧ (s.takeChunk c n b).lastClaimed =
      s.lastClaimed ∧ (s.takeChunk c n b).rx = s.rx ∧ (s.takeChunk c n b).rxRecessive =
      s.rxRecessive ∧ (s.takeChunk c n b).listeningEnd = s.listeningEnd ∧ (s.takeChunk c n b).streak
      = s.streak ∧ (s.takeChunk c n b).roster = s.roster ∧ (s.takeChunk c n b).lastSent = s.lastSent
      ∧ (s.takeChunk c n b).responder = s.responder ∧ (s.takeChunk c n b).stage = s.stage ∧
      (s.takeChunk c n b).pending = s.pending ∧ (s.takeChunk c n b).port.txn = s.port.txn ∧
      (s.takeChunk c n b).port.shifted = s.port.shifted ∧ (s.takeChunk c n b).port.response =
      s.port.response ∧ (s.takeChunk c n b).port.commit = s.port.commit ∧ (s.takeChunk c n
      b).port.carried = s.port.carried ∧ (s.takeChunk c n b).port.statusOut = s.port.statusOut ∧
      (s.takeChunk c n b).tx.onLine = s.tx.onLine ∧ (s.takeChunk c n b).tx.breaking = s.tx.breaking
      ∧ (s.takeChunk c n b).tx.discards = s.tx.discards ∧ (s.takeChunk c n b).tx.yielding =
      s.tx.yielding ∧ (s.takeChunk c n b).tx.recessive = s.tx.recessive := by
  unfold State.takeChunk; dsimp only; (repeat' split) <;> simp

@[simp] theorem State.requesterState_frame (a : Addr) (n : Nat) (b : StateBody) (s : State) :
    (s.requesterState a n b).inReset = s.inReset ∧ (s.requesterState a n b).csnHigh = s.csnHigh ∧
      (s.requesterState a n b).addr = s.addr ∧ (s.requesterState a n b).rate = s.rate ∧
      (s.requesterState a n b).params = s.params ∧ (s.requesterState a n b).fingerprint =
      s.fingerprint ∧ (s.requesterState a n b).armed = s.armed ∧ (s.requesterState a n b).rx = s.rx
      ∧ (s.requesterState a n b).rxRecessive = s.rxRecessive ∧ (s.requesterState a n b).streak =
      s.streak ∧ (s.requesterState a n b).stage = s.stage ∧ (s.requesterState a n b).pending =
      s.pending ∧ (s.requesterState a n b).port.txn = s.port.txn ∧ (s.requesterState a n
      b).port.shifted = s.port.shifted ∧ (s.requesterState a n b).port.response = s.port.response ∧
      (s.requesterState a n b).port.commit = s.port.commit ∧ (s.requesterState a n b).port.carried =
      s.port.carried ∧ (s.requesterState a n b).port.statusOut = s.port.statusOut ∧
      (s.requesterState a n b).tx.onLine = s.tx.onLine ∧ (s.requesterState a n b).tx.breaking =
      s.tx.breaking ∧ (s.requesterState a n b).tx.discards = s.tx.discards ∧ (s.requesterState a n
      b).tx.yielding = s.tx.yielding ∧ (s.requesterState a n b).tx.recessive = s.tx.recessive := by
  unfold State.requesterState; (repeat' split) <;> simp

@[simp] theorem State.takeLatch_frame (s : State) :
    s.takeLatch.inReset = s.inReset ∧ s.takeLatch.csnHigh = s.csnHigh ∧ s.takeLatch.addr = s.addr
      ∧ s.takeLatch.rate = s.rate ∧ s.takeLatch.params = s.params ∧ s.takeLatch.fingerprint =
      s.fingerprint ∧ s.takeLatch.tick = s.tick ∧ s.takeLatch.armed = s.armed ∧
      s.takeLatch.lastClaimed = s.lastClaimed ∧ s.takeLatch.tx = s.tx ∧ s.takeLatch.rx = s.rx ∧
      s.takeLatch.rxRecessive = s.rxRecessive ∧ s.takeLatch.table = s.table ∧ s.takeLatch.stepState
      = s.stepState ∧ s.takeLatch.listeningEnd = s.listeningEnd ∧ s.takeLatch.streak = s.streak ∧
      s.takeLatch.roster = s.roster ∧ s.takeLatch.lastSent = s.lastSent ∧ s.takeLatch.requester =
      s.requester ∧ s.takeLatch.orders = s.orders ∧ s.takeLatch.port = s.port ∧ s.takeLatch.stage =
      s.stage ∧ s.takeLatch.flags = s.flags ∧ s.takeLatch.attention = s.attention ∧
      s.takeLatch.counters = s.counters ∧ s.takeLatch.pending = s.pending := by
  simp [State.takeLatch]

@[simp] theorem State.requestHeard_frame (a : Addr) (s : State) :
    (s.requestHeard a).inReset = s.inReset ∧ (s.requestHeard a).csnHigh = s.csnHigh ∧
      (s.requestHeard a).addr = s.addr ∧ (s.requestHeard a).rate = s.rate ∧ (s.requestHeard
      a).params = s.params ∧ (s.requestHeard a).fingerprint = s.fingerprint ∧ (s.requestHeard
      a).tick = s.tick ∧ (s.requestHeard a).armed = s.armed ∧ (s.requestHeard a).lastClaimed =
      s.lastClaimed ∧ (s.requestHeard a).tx = s.tx ∧ (s.requestHeard a).rx = s.rx ∧ (s.requestHeard
      a).rxRecessive = s.rxRecessive ∧ (s.requestHeard a).table = s.table ∧ (s.requestHeard
      a).stepState = s.stepState ∧ (s.requestHeard a).listeningEnd = s.listeningEnd ∧
      (s.requestHeard a).streak = s.streak ∧ (s.requestHeard a).roster = s.roster ∧ (s.requestHeard
      a).lastSent = s.lastSent ∧ (s.requestHeard a).requester = s.requester ∧ (s.requestHeard
      a).orders = s.orders ∧ (s.requestHeard a).port = s.port ∧ (s.requestHeard a).stage = s.stage ∧
      (s.requestHeard a).flags = s.flags ∧ (s.requestHeard a).attention = s.attention ∧
      (s.requestHeard a).counters = s.counters ∧ (s.requestHeard a).pending = s.pending := by
  unfold State.requestHeard; (repeat' split) <;> simp

@[simp] theorem State.headerHeard_frame (a : Addr) (s : State) :
    (s.headerHeard a).inReset = s.inReset ∧ (s.headerHeard a).csnHigh = s.csnHigh ∧ (s.headerHeard
      a).addr = s.addr ∧ (s.headerHeard a).rate = s.rate ∧ (s.headerHeard a).params = s.params ∧
      (s.headerHeard a).fingerprint = s.fingerprint ∧ (s.headerHeard a).tick = s.tick ∧
      (s.headerHeard a).armed = s.armed ∧ (s.headerHeard a).lastClaimed = s.lastClaimed ∧
      (s.headerHeard a).rx = s.rx ∧ (s.headerHeard a).rxRecessive = s.rxRecessive ∧ (s.headerHeard
      a).table = s.table ∧ (s.headerHeard a).stepState = s.stepState ∧ (s.headerHeard
      a).listeningEnd = s.listeningEnd ∧ (s.headerHeard a).streak = s.streak ∧ (s.headerHeard
      a).roster = s.roster ∧ (s.headerHeard a).lastSent = s.lastSent ∧ (s.headerHeard a).requester =
      s.requester ∧ (s.headerHeard a).orders = s.orders ∧ (s.headerHeard a).port = s.port ∧
      (s.headerHeard a).stage = s.stage ∧ (s.headerHeard a).flags = s.flags ∧ (s.headerHeard
      a).attention = s.attention ∧ (s.headerHeard a).pending = s.pending ∧ (s.headerHeard
      a).tx.onLine = s.tx.onLine ∧ (s.headerHeard a).tx.breaking = s.tx.breaking ∧ (s.headerHeard
      a).tx.discards = s.tx.discards ∧ (s.headerHeard a).tx.yielding = s.tx.yielding ∧
      (s.headerHeard a).tx.recessive = s.tx.recessive := by
  unfold State.headerHeard; dsimp only; (repeat' split) <;> simp

@[simp] theorem State.responderState_frame (b : StateBody) (s : State) :
    (s.responderState b).inReset = s.inReset ∧ (s.responderState b).csnHigh = s.csnHigh ∧
      (s.responderState b).addr = s.addr ∧ (s.responderState b).rate = s.rate ∧ (s.responderState
      b).params = s.params ∧ (s.responderState b).fingerprint = s.fingerprint ∧ (s.responderState
      b).tick = s.tick ∧ (s.responderState b).armed = s.armed ∧ (s.responderState b).lastClaimed =
      s.lastClaimed ∧ (s.responderState b).rx = s.rx ∧ (s.responderState b).rxRecessive =
      s.rxRecessive ∧ (s.responderState b).table = s.table ∧ (s.responderState b).stepState =
      s.stepState ∧ (s.responderState b).listeningEnd = s.listeningEnd ∧ (s.responderState b).streak
      = s.streak ∧ (s.responderState b).roster = s.roster ∧ (s.responderState b).lastSent =
      s.lastSent ∧ (s.responderState b).requester = s.requester ∧ (s.responderState b).orders =
      s.orders ∧ (s.responderState b).port = s.port ∧ (s.responderState b).stage = s.stage ∧
      (s.responderState b).flags = s.flags ∧ (s.responderState b).attention = s.attention ∧
      (s.responderState b).pending = s.pending ∧ (s.responderState b).tx.onLine = s.tx.onLine ∧
      (s.responderState b).tx.breaking = s.tx.breaking ∧ (s.responderState b).tx.discards =
      s.tx.discards ∧ (s.responderState b).tx.yielding = s.tx.yielding ∧ (s.responderState
      b).tx.recessive = s.tx.recessive := by
  unfold State.responderState; (repeat' split) <;> simp

@[simp] theorem State.beginService_frame (a : Addr) (s : State) :
    (s.beginService a).inReset = s.inReset ∧ (s.beginService a).csnHigh = s.csnHigh ∧
      (s.beginService a).addr = s.addr ∧ (s.beginService a).rate = s.rate ∧ (s.beginService
      a).params = s.params ∧ (s.beginService a).fingerprint = s.fingerprint ∧ (s.beginService
      a).tick = s.tick ∧ (s.beginService a).armed = s.armed ∧ (s.beginService a).lastClaimed =
      s.lastClaimed ∧ (s.beginService a).rx = s.rx ∧ (s.beginService a).rxRecessive = s.rxRecessive
      ∧ (s.beginService a).table = s.table ∧ (s.beginService a).stepState = s.stepState ∧
      (s.beginService a).listeningEnd = s.listeningEnd ∧ (s.beginService a).streak = s.streak ∧
      (s.beginService a).roster = s.roster ∧ (s.beginService a).lastSent = s.lastSent ∧
      (s.beginService a).requester = s.requester ∧ (s.beginService a).orders = s.orders ∧
      (s.beginService a).port = s.port ∧ (s.beginService a).stage = s.stage ∧ (s.beginService
      a).flags = s.flags ∧ (s.beginService a).attention = s.attention ∧ (s.beginService a).counters
      = s.counters ∧ (s.beginService a).pending = s.pending ∧ (s.beginService a).tx.onLine =
      s.tx.onLine ∧ (s.beginService a).tx.breaking = s.tx.breaking ∧ (s.beginService a).tx.discards
      = s.tx.discards ∧ (s.beginService a).tx.yielding = s.tx.yielding ∧ (s.beginService
      a).tx.recessive = s.tx.recessive := by
  simp [State.beginService]

@[simp] theorem State.chunkSent_frame (s : State) :
    s.chunkSent.inReset = s.inReset ∧ s.chunkSent.csnHigh = s.csnHigh ∧ s.chunkSent.addr = s.addr
      ∧ s.chunkSent.rate = s.rate ∧ s.chunkSent.params = s.params ∧ s.chunkSent.fingerprint =
      s.fingerprint ∧ s.chunkSent.tick = s.tick ∧ s.chunkSent.armed = s.armed ∧
      s.chunkSent.lastClaimed = s.lastClaimed ∧ s.chunkSent.rx = s.rx ∧ s.chunkSent.rxRecessive =
      s.rxRecessive ∧ s.chunkSent.table = s.table ∧ s.chunkSent.stepState = s.stepState ∧
      s.chunkSent.listeningEnd = s.listeningEnd ∧ s.chunkSent.streak = s.streak ∧ s.chunkSent.roster
      = s.roster ∧ s.chunkSent.lastSent = s.lastSent ∧ s.chunkSent.requester = s.requester ∧
      s.chunkSent.orders = s.orders ∧ s.chunkSent.port = s.port ∧ s.chunkSent.stage = s.stage ∧
      s.chunkSent.flags = s.flags ∧ s.chunkSent.attention = s.attention ∧ s.chunkSent.counters =
      s.counters ∧ s.chunkSent.pending = s.pending ∧ s.chunkSent.tx.onLine = s.tx.onLine ∧
      s.chunkSent.tx.breaking = s.tx.breaking ∧ s.chunkSent.tx.discards = s.tx.discards ∧
      s.chunkSent.tx.yielding = s.tx.yielding ∧ s.chunkSent.tx.recessive = s.tx.recessive := by
  unfold State.chunkSent; (repeat' split) <;> simp

@[simp] theorem State.chunkDiscarded_frame (s : State) :
    s.chunkDiscarded.inReset = s.inReset ∧ s.chunkDiscarded.csnHigh = s.csnHigh ∧
      s.chunkDiscarded.addr = s.addr ∧ s.chunkDiscarded.rate = s.rate ∧ s.chunkDiscarded.params =
      s.params ∧ s.chunkDiscarded.fingerprint = s.fingerprint ∧ s.chunkDiscarded.tick = s.tick ∧
      s.chunkDiscarded.armed = s.armed ∧ s.chunkDiscarded.lastClaimed = s.lastClaimed ∧
      s.chunkDiscarded.tx = s.tx ∧ s.chunkDiscarded.rx = s.rx ∧ s.chunkDiscarded.rxRecessive =
      s.rxRecessive ∧ s.chunkDiscarded.table = s.table ∧ s.chunkDiscarded.stepState = s.stepState ∧
      s.chunkDiscarded.listeningEnd = s.listeningEnd ∧ s.chunkDiscarded.streak = s.streak ∧
      s.chunkDiscarded.roster = s.roster ∧ s.chunkDiscarded.lastSent = s.lastSent ∧
      s.chunkDiscarded.requester = s.requester ∧ s.chunkDiscarded.orders = s.orders ∧
      s.chunkDiscarded.port = s.port ∧ s.chunkDiscarded.stage = s.stage ∧ s.chunkDiscarded.flags =
      s.flags ∧ s.chunkDiscarded.attention = s.attention ∧ s.chunkDiscarded.counters = s.counters ∧
      s.chunkDiscarded.pending = s.pending := by
  unfold State.chunkDiscarded; (repeat' split) <;> simp

/-! ### Sys2Proof/Machine/Monitor.lean -/

@[simp] theorem State.offerPresence_frame (s : State) :
    s.offerPresence.inReset = s.inReset ∧ s.offerPresence.csnHigh = s.csnHigh ∧
      s.offerPresence.addr = s.addr ∧ s.offerPresence.rate = s.rate ∧ s.offerPresence.params =
      s.params ∧ s.offerPresence.fingerprint = s.fingerprint ∧ s.offerPresence.tick = s.tick ∧
      s.offerPresence.armed = s.armed ∧ s.offerPresence.lastClaimed = s.lastClaimed ∧
      s.offerPresence.rx = s.rx ∧ s.offerPresence.rxRecessive = s.rxRecessive ∧
      s.offerPresence.table = s.table ∧ s.offerPresence.stepState = s.stepState ∧
      s.offerPresence.listeningEnd = s.listeningEnd ∧ s.offerPresence.streak = s.streak ∧
      s.offerPresence.roster = s.roster ∧ s.offerPresence.lastSent = s.lastSent ∧
      s.offerPresence.requester = s.requester ∧ s.offerPresence.responder = s.responder ∧
      s.offerPresence.orders = s.orders ∧ s.offerPresence.port = s.port ∧ s.offerPresence.stage =
      s.stage ∧ s.offerPresence.flags = s.flags ∧ s.offerPresence.attention = s.attention ∧
      s.offerPresence.counters = s.counters ∧ s.offerPresence.pending = s.pending ∧
      s.offerPresence.tx.onLine = s.tx.onLine ∧ s.offerPresence.tx.breaking = s.tx.breaking ∧
      s.offerPresence.tx.discards = s.tx.discards ∧ s.offerPresence.tx.yielding = s.tx.yielding ∧
      s.offerPresence.tx.recessive = s.tx.recessive := by
  simp only [State.offerPresence]; split <;> simp

@[simp] theorem State.record_frame (h : Header) (f : Option Half) (s : State) :
    (s.record h f).inReset = s.inReset ∧ (s.record h f).csnHigh = s.csnHigh ∧ (s.record h f).addr
      = s.addr ∧ (s.record h f).rate = s.rate ∧ (s.record h f).params = s.params ∧ (s.record h
      f).fingerprint = s.fingerprint ∧ (s.record h f).tick = s.tick ∧ (s.record h f).armed = s.armed
      ∧ (s.record h f).lastClaimed = s.lastClaimed ∧ (s.record h f).tx = s.tx ∧ (s.record h f).rx =
      s.rx ∧ (s.record h f).rxRecessive = s.rxRecessive ∧ (s.record h f).table = s.table ∧ (s.record
      h f).stepState = s.stepState ∧ (s.record h f).listeningEnd = s.listeningEnd ∧ (s.record h
      f).streak = s.streak ∧ (s.record h f).lastSent = s.lastSent ∧ (s.record h f).requester =
      s.requester ∧ (s.record h f).responder = s.responder ∧ (s.record h f).orders = s.orders ∧
      (s.record h f).port = s.port ∧ (s.record h f).stage = s.stage ∧ (s.record h f).flags = s.flags
      ∧ (s.record h f).attention = s.attention ∧ (s.record h f).counters = s.counters ∧ (s.record h
      f).pending = s.pending := by
  simp [State.record]

@[simp] theorem State.enterOutOfStep_frame (s : State) :
    s.enterOutOfStep.inReset = s.inReset ∧ s.enterOutOfStep.csnHigh = s.csnHigh ∧
      s.enterOutOfStep.addr = s.addr ∧ s.enterOutOfStep.rate = s.rate ∧ s.enterOutOfStep.params =
      s.params ∧ s.enterOutOfStep.fingerprint = s.fingerprint ∧ s.enterOutOfStep.tick = s.tick ∧
      s.enterOutOfStep.armed = s.armed ∧ s.enterOutOfStep.lastClaimed = s.lastClaimed ∧
      s.enterOutOfStep.rx = s.rx ∧ s.enterOutOfStep.rxRecessive = s.rxRecessive ∧
      s.enterOutOfStep.listeningEnd = s.listeningEnd ∧ s.enterOutOfStep.roster = s.roster ∧
      s.enterOutOfStep.lastSent = s.lastSent ∧ s.enterOutOfStep.orders = s.orders ∧
      s.enterOutOfStep.port = s.port ∧ s.enterOutOfStep.stage = s.stage ∧ s.enterOutOfStep.flags =
      s.flags ∧ s.enterOutOfStep.attention = s.attention ∧ s.enterOutOfStep.pending = s.pending ∧
      s.enterOutOfStep.tx.onLine = s.tx.onLine ∧ s.enterOutOfStep.tx.breaking = s.tx.breaking ∧
      s.enterOutOfStep.tx.discards = s.tx.discards ∧ s.enterOutOfStep.tx.yielding = s.tx.yielding ∧
      s.enterOutOfStep.tx.recessive = s.tx.recessive := by
  simp [State.enterOutOfStep]

@[simp] theorem State.leaveStep_frame (s : State) :
    s.leaveStep.inReset = s.inReset ∧ s.leaveStep.csnHigh = s.csnHigh ∧ s.leaveStep.addr = s.addr
      ∧ s.leaveStep.rate = s.rate ∧ s.leaveStep.params = s.params ∧ s.leaveStep.fingerprint =
      s.fingerprint ∧ s.leaveStep.tick = s.tick ∧ s.leaveStep.armed = s.armed ∧
      s.leaveStep.lastClaimed = s.lastClaimed ∧ s.leaveStep.rx = s.rx ∧ s.leaveStep.rxRecessive =
      s.rxRecessive ∧ s.leaveStep.listeningEnd = s.listeningEnd ∧ s.leaveStep.roster = s.roster ∧
      s.leaveStep.lastSent = s.lastSent ∧ s.leaveStep.orders = s.orders ∧ s.leaveStep.stage =
      s.stage ∧ s.leaveStep.pending = s.pending ∧ s.leaveStep.port.txn = s.port.txn ∧
      s.leaveStep.port.shifted = s.port.shifted ∧ s.leaveStep.port.response = s.port.response ∧
      s.leaveStep.port.commit = s.port.commit ∧ s.leaveStep.port.carried = s.port.carried ∧
      s.leaveStep.port.statusOut = s.port.statusOut ∧ s.leaveStep.tx.onLine = s.tx.onLine ∧
      s.leaveStep.tx.breaking = s.tx.breaking ∧ s.leaveStep.tx.discards = s.tx.discards ∧
      s.leaveStep.tx.yielding = s.tx.yielding ∧ s.leaveStep.tx.recessive = s.tx.recessive := by
  simp [State.leaveStep]

@[simp] theorem State.join_frame (s : State) :
    s.join.inReset = s.inReset ∧ s.join.csnHigh = s.csnHigh ∧ s.join.addr = s.addr ∧ s.join.rate =
      s.rate ∧ s.join.params = s.params ∧ s.join.fingerprint = s.fingerprint ∧ s.join.tick = s.tick
      ∧ s.join.armed = s.armed ∧ s.join.lastClaimed = s.lastClaimed ∧ s.join.rx = s.rx ∧
      s.join.rxRecessive = s.rxRecessive ∧ s.join.roster = s.roster ∧ s.join.orders = s.orders ∧
      s.join.port = s.port ∧ s.join.stage = s.stage ∧ s.join.flags = s.flags ∧ s.join.attention =
      s.attention ∧ s.join.pending = s.pending ∧ s.join.tx.onLine = s.tx.onLine ∧ s.join.tx.breaking
      = s.tx.breaking ∧ s.join.tx.discards = s.tx.discards ∧ s.join.tx.yielding = s.tx.yielding ∧
      s.join.tx.recessive = s.tx.recessive := by
  simp [State.join]

@[simp] theorem State.enterMute_frame (s : State) :
    s.enterMute.inReset = s.inReset ∧ s.enterMute.csnHigh = s.csnHigh ∧ s.enterMute.addr = s.addr
      ∧ s.enterMute.rate = s.rate ∧ s.enterMute.params = s.params ∧ s.enterMute.fingerprint =
      s.fingerprint ∧ s.enterMute.tick = s.tick ∧ s.enterMute.armed = s.armed ∧
      s.enterMute.lastClaimed = s.lastClaimed ∧ s.enterMute.rx = s.rx ∧ s.enterMute.rxRecessive =
      s.rxRecessive ∧ s.enterMute.streak = s.streak ∧ s.enterMute.roster = s.roster ∧
      s.enterMute.lastSent = s.lastSent ∧ s.enterMute.orders = s.orders ∧ s.enterMute.stage =
      s.stage ∧ s.enterMute.pending = s.pending ∧ s.enterMute.port.txn = s.port.txn ∧
      s.enterMute.port.shifted = s.port.shifted ∧ s.enterMute.port.response = s.port.response ∧
      s.enterMute.port.commit = s.port.commit ∧ s.enterMute.port.carried = s.port.carried ∧
      s.enterMute.port.statusOut = s.port.statusOut := by
  simp [State.enterMute]

@[simp] theorem State.voteAgree_frame (a : Addr) (s : State) :
    (s.voteAgree a).inReset = s.inReset ∧ (s.voteAgree a).csnHigh = s.csnHigh ∧ (s.voteAgree
      a).addr = s.addr ∧ (s.voteAgree a).rate = s.rate ∧ (s.voteAgree a).params = s.params ∧
      (s.voteAgree a).fingerprint = s.fingerprint ∧ (s.voteAgree a).tick = s.tick ∧ (s.voteAgree
      a).armed = s.armed ∧ (s.voteAgree a).lastClaimed = s.lastClaimed ∧ (s.voteAgree a).tx = s.tx ∧
      (s.voteAgree a).rx = s.rx ∧ (s.voteAgree a).rxRecessive = s.rxRecessive ∧ (s.voteAgree
      a).table = s.table ∧ (s.voteAgree a).stepState = s.stepState ∧ (s.voteAgree a).listeningEnd =
      s.listeningEnd ∧ (s.voteAgree a).lastSent = s.lastSent ∧ (s.voteAgree a).requester =
      s.requester ∧ (s.voteAgree a).responder = s.responder ∧ (s.voteAgree a).orders = s.orders ∧
      (s.voteAgree a).port = s.port ∧ (s.voteAgree a).stage = s.stage ∧ (s.voteAgree a).flags =
      s.flags ∧ (s.voteAgree a).attention = s.attention ∧ (s.voteAgree a).counters = s.counters ∧
      (s.voteAgree a).pending = s.pending := by
  simp [State.voteAgree]

@[simp] theorem State.countDisagreement_frame (a : Addr) (s : State) :
    (s.countDisagreement a).inReset = s.inReset ∧ (s.countDisagreement a).csnHigh = s.csnHigh ∧
      (s.countDisagreement a).addr = s.addr ∧ (s.countDisagreement a).rate = s.rate ∧
      (s.countDisagreement a).params = s.params ∧ (s.countDisagreement a).fingerprint =
      s.fingerprint ∧ (s.countDisagreement a).tick = s.tick ∧ (s.countDisagreement a).armed =
      s.armed ∧ (s.countDisagreement a).lastClaimed = s.lastClaimed ∧ (s.countDisagreement a).tx =
      s.tx ∧ (s.countDisagreement a).rx = s.rx ∧ (s.countDisagreement a).rxRecessive = s.rxRecessive
      ∧ (s.countDisagreement a).table = s.table ∧ (s.countDisagreement a).stepState = s.stepState ∧
      (s.countDisagreement a).listeningEnd = s.listeningEnd ∧ (s.countDisagreement a).lastSent =
      s.lastSent ∧ (s.countDisagreement a).requester = s.requester ∧ (s.countDisagreement
      a).responder = s.responder ∧ (s.countDisagreement a).orders = s.orders ∧ (s.countDisagreement
      a).port = s.port ∧ (s.countDisagreement a).stage = s.stage ∧ (s.countDisagreement a).flags =
      s.flags ∧ (s.countDisagreement a).attention = s.attention ∧ (s.countDisagreement a).pending =
      s.pending := by
  simp [State.countDisagreement]

@[simp] theorem State.voteDisagree_frame (a : Addr) (s : State) :
    (s.voteDisagree a).inReset = s.inReset ∧ (s.voteDisagree a).csnHigh = s.csnHigh ∧
      (s.voteDisagree a).addr = s.addr ∧ (s.voteDisagree a).rate = s.rate ∧ (s.voteDisagree
      a).params = s.params ∧ (s.voteDisagree a).fingerprint = s.fingerprint ∧ (s.voteDisagree
      a).tick = s.tick ∧ (s.voteDisagree a).armed = s.armed ∧ (s.voteDisagree a).lastClaimed =
      s.lastClaimed ∧ (s.voteDisagree a).rx = s.rx ∧ (s.voteDisagree a).rxRecessive = s.rxRecessive
      ∧ (s.voteDisagree a).listeningEnd = s.listeningEnd ∧ (s.voteDisagree a).lastSent = s.lastSent
      ∧ (s.voteDisagree a).orders = s.orders ∧ (s.voteDisagree a).stage = s.stage ∧ (s.voteDisagree
      a).pending = s.pending ∧ (s.voteDisagree a).port.txn = s.port.txn ∧ (s.voteDisagree
      a).port.shifted = s.port.shifted ∧ (s.voteDisagree a).port.response = s.port.response ∧
      (s.voteDisagree a).port.commit = s.port.commit ∧ (s.voteDisagree a).port.carried =
      s.port.carried ∧ (s.voteDisagree a).port.statusOut = s.port.statusOut ∧ (s.voteDisagree
      a).tx.onLine = s.tx.onLine ∧ (s.voteDisagree a).tx.breaking = s.tx.breaking ∧ (s.voteDisagree
      a).tx.discards = s.tx.discards ∧ (s.voteDisagree a).tx.yielding = s.tx.yielding ∧
      (s.voteDisagree a).tx.recessive = s.tx.recessive := by
  unfold State.voteDisagree; dsimp only; (repeat' split) <;> simp

@[simp] theorem State.vote_frame (h : Header) (s : State) :
    (s.vote h).inReset = s.inReset ∧ (s.vote h).csnHigh = s.csnHigh ∧ (s.vote h).addr = s.addr ∧
      (s.vote h).rate = s.rate ∧ (s.vote h).params = s.params ∧ (s.vote h).fingerprint =
      s.fingerprint ∧ (s.vote h).tick = s.tick ∧ (s.vote h).armed = s.armed ∧ (s.vote h).lastClaimed
      = s.lastClaimed ∧ (s.vote h).rx = s.rx ∧ (s.vote h).rxRecessive = s.rxRecessive ∧ (s.vote
      h).listeningEnd = s.listeningEnd ∧ (s.vote h).lastSent = s.lastSent ∧ (s.vote h).orders =
      s.orders ∧ (s.vote h).stage = s.stage ∧ (s.vote h).pending = s.pending ∧ (s.vote h).port.txn =
      s.port.txn ∧ (s.vote h).port.shifted = s.port.shifted ∧ (s.vote h).port.response =
      s.port.response ∧ (s.vote h).port.commit = s.port.commit ∧ (s.vote h).port.carried =
      s.port.carried ∧ (s.vote h).port.statusOut = s.port.statusOut ∧ (s.vote h).tx.onLine =
      s.tx.onLine ∧ (s.vote h).tx.breaking = s.tx.breaking ∧ (s.vote h).tx.discards = s.tx.discards
      ∧ (s.vote h).tx.yielding = s.tx.yielding ∧ (s.vote h).tx.recessive = s.tx.recessive := by
  unfold State.vote; (repeat' split) <;> simp

@[simp] theorem State.receiverDone_frame (s : State) :
    s.receiverDone.inReset = s.inReset ∧ s.receiverDone.csnHigh = s.csnHigh ∧ s.receiverDone.addr
      = s.addr ∧ s.receiverDone.rate = s.rate ∧ s.receiverDone.params = s.params ∧
      s.receiverDone.fingerprint = s.fingerprint ∧ s.receiverDone.tick = s.tick ∧
      s.receiverDone.armed = s.armed ∧ s.receiverDone.lastClaimed = s.lastClaimed ∧
      s.receiverDone.table = s.table ∧ s.receiverDone.stepState = s.stepState ∧
      s.receiverDone.listeningEnd = s.listeningEnd ∧ s.receiverDone.streak = s.streak ∧
      s.receiverDone.roster = s.roster ∧ s.receiverDone.lastSent = s.lastSent ∧
      s.receiverDone.requester = s.requester ∧ s.receiverDone.responder = s.responder ∧
      s.receiverDone.orders = s.orders ∧ s.receiverDone.port = s.port ∧ s.receiverDone.stage =
      s.stage ∧ s.receiverDone.flags = s.flags ∧ s.receiverDone.attention = s.attention ∧
      s.receiverDone.counters = s.counters ∧ s.receiverDone.pending = s.pending := by
  simp [State.receiverDone]

@[simp] theorem State.arrive_frame (h : Header) (f : Option Half) (epoch : Bool) (s : State) :
    (s.arrive h f epoch).inReset = s.inReset ∧ (s.arrive h f epoch).csnHigh = s.csnHigh ∧
      (s.arrive h f epoch).addr = s.addr ∧ (s.arrive h f epoch).rate = s.rate ∧ (s.arrive h f
      epoch).params = s.params ∧ (s.arrive h f epoch).fingerprint = s.fingerprint ∧ (s.arrive h f
      epoch).armed = s.armed ∧ (s.arrive h f epoch).table = s.table ∧ (s.arrive h f epoch).stepState
      = s.stepState ∧ (s.arrive h f epoch).streak = s.streak ∧ (s.arrive h f epoch).orders =
      s.orders ∧ (s.arrive h f epoch).stage = s.stage ∧ (s.arrive h f epoch).pending = s.pending ∧
      (s.arrive h f epoch).port.txn = s.port.txn ∧ (s.arrive h f epoch).port.shifted =
      s.port.shifted ∧ (s.arrive h f epoch).port.response = s.port.response ∧ (s.arrive h f
      epoch).port.commit = s.port.commit ∧ (s.arrive h f epoch).port.carried = s.port.carried ∧
      (s.arrive h f epoch).port.statusOut = s.port.statusOut := by
  unfold State.arrive; dsimp only; (repeat' split) <;> simp

@[simp] theorem State.monitor_frame (h : Header) (s : State) :
    (s.monitor h).inReset = s.inReset ∧ (s.monitor h).csnHigh = s.csnHigh ∧ (s.monitor h).addr =
      s.addr ∧ (s.monitor h).rate = s.rate ∧ (s.monitor h).params = s.params ∧ (s.monitor
      h).fingerprint = s.fingerprint ∧ (s.monitor h).tick = s.tick ∧ (s.monitor h).armed = s.armed ∧
      (s.monitor h).lastClaimed = s.lastClaimed ∧ (s.monitor h).rx = s.rx ∧ (s.monitor
      h).rxRecessive = s.rxRecessive ∧ (s.monitor h).orders = s.orders ∧ (s.monitor h).stage =
      s.stage ∧ (s.monitor h).pending = s.pending ∧ (s.monitor h).port.txn = s.port.txn ∧ (s.monitor
      h).port.shifted = s.port.shifted ∧ (s.monitor h).port.response = s.port.response ∧ (s.monitor
      h).port.commit = s.port.commit ∧ (s.monitor h).port.carried = s.port.carried ∧ (s.monitor
      h).port.statusOut = s.port.statusOut ∧ (s.monitor h).tx.onLine = s.tx.onLine ∧ (s.monitor
      h).tx.breaking = s.tx.breaking ∧ (s.monitor h).tx.discards = s.tx.discards ∧ (s.monitor
      h).tx.yielding = s.tx.yielding ∧ (s.monitor h).tx.recessive = s.tx.recessive := by
  unfold State.monitor; (repeat' split) <;> simp

@[simp] theorem State.accept_frame (h : Header) (f : Option Half) (epoch : Bool) (s : State) :
    (s.accept h f epoch).inReset = s.inReset ∧ (s.accept h f epoch).csnHigh = s.csnHigh ∧
      (s.accept h f epoch).addr = s.addr ∧ (s.accept h f epoch).rate = s.rate ∧ (s.accept h f
      epoch).params = s.params ∧ (s.accept h f epoch).fingerprint = s.fingerprint ∧ (s.accept h f
      epoch).armed = s.armed ∧ (s.accept h f epoch).orders = s.orders ∧ (s.accept h f epoch).stage =
      s.stage ∧ (s.accept h f epoch).pending = s.pending ∧ (s.accept h f epoch).port.txn =
      s.port.txn ∧ (s.accept h f epoch).port.shifted = s.port.shifted ∧ (s.accept h f
      epoch).port.response = s.port.response ∧ (s.accept h f epoch).port.commit = s.port.commit ∧
      (s.accept h f epoch).port.carried = s.port.carried ∧ (s.accept h f epoch).port.statusOut =
      s.port.statusOut := by
  simp [State.accept]

@[simp] theorem State.ownSequenced_frame (h : Header) (body : Sequenced) (s : State) :
    (s.ownSequenced h body).inReset = s.inReset ∧ (s.ownSequenced h body).csnHigh = s.csnHigh ∧
      (s.ownSequenced h body).addr = s.addr ∧ (s.ownSequenced h body).rate = s.rate ∧
      (s.ownSequenced h body).params = s.params ∧ (s.ownSequenced h body).fingerprint =
      s.fingerprint ∧ (s.ownSequenced h body).tick = s.tick ∧ (s.ownSequenced h body).armed =
      s.armed ∧ (s.ownSequenced h body).lastClaimed = s.lastClaimed ∧ (s.ownSequenced h body).rx =
      s.rx ∧ (s.ownSequenced h body).rxRecessive = s.rxRecessive ∧ (s.ownSequenced h
      body).listeningEnd = s.listeningEnd ∧ (s.ownSequenced h body).streak = s.streak ∧
      (s.ownSequenced h body).roster = s.roster ∧ (s.ownSequenced h body).lastSent = s.lastSent ∧
      (s.ownSequenced h body).responder = s.responder ∧ (s.ownSequenced h body).stage = s.stage ∧
      (s.ownSequenced h body).pending = s.pending ∧ (s.ownSequenced h body).port.txn = s.port.txn ∧
      (s.ownSequenced h body).port.shifted = s.port.shifted ∧ (s.ownSequenced h body).port.response
      = s.port.response ∧ (s.ownSequenced h body).port.commit = s.port.commit ∧ (s.ownSequenced h
      body).port.carried = s.port.carried ∧ (s.ownSequenced h body).port.statusOut =
      s.port.statusOut ∧ (s.ownSequenced h body).tx.onLine = s.tx.onLine ∧ (s.ownSequenced h
      body).tx.breaking = s.tx.breaking ∧ (s.ownSequenced h body).tx.discards = s.tx.discards ∧
      (s.ownSequenced h body).tx.yielding = s.tx.yielding ∧ (s.ownSequenced h body).tx.recessive =
      s.tx.recessive := by
  unfold State.ownSequenced; (repeat' split) <;> simp

@[simp] theorem State.ownClear_frame (tick : Tick) (epoch : Byte) (s : State) :
    (s.ownClear tick epoch).inReset = s.inReset ∧ (s.ownClear tick epoch).csnHigh = s.csnHigh ∧
      (s.ownClear tick epoch).addr = s.addr ∧ (s.ownClear tick epoch).rate = s.rate ∧ (s.ownClear
      tick epoch).params = s.params ∧ (s.ownClear tick epoch).fingerprint = s.fingerprint ∧
      (s.ownClear tick epoch).armed = s.armed ∧ (s.ownClear tick epoch).rx = s.rx ∧ (s.ownClear tick
      epoch).rxRecessive = s.rxRecessive ∧ (s.ownClear tick epoch).stage = s.stage ∧ (s.ownClear
      tick epoch).pending = s.pending ∧ (s.ownClear tick epoch).port.txn = s.port.txn ∧ (s.ownClear
      tick epoch).port.shifted = s.port.shifted ∧ (s.ownClear tick epoch).port.response =
      s.port.response ∧ (s.ownClear tick epoch).port.commit = s.port.commit ∧ (s.ownClear tick
      epoch).port.carried = s.port.carried ∧ (s.ownClear tick epoch).port.statusOut =
      s.port.statusOut ∧ (s.ownClear tick epoch).tx.onLine = s.tx.onLine ∧ (s.ownClear tick
      epoch).tx.breaking = s.tx.breaking ∧ (s.ownClear tick epoch).tx.discards = s.tx.discards ∧
      (s.ownClear tick epoch).tx.yielding = s.tx.yielding ∧ (s.ownClear tick epoch).tx.recessive =
      s.tx.recessive := by
  unfold State.ownClear; (repeat' split) <;> simp

@[simp] theorem State.ownState_frame (h : Header) (body : List Byte) (s : State) :
    (s.ownState h body).inReset = s.inReset ∧ (s.ownState h body).csnHigh = s.csnHigh ∧
      (s.ownState h body).addr = s.addr ∧ (s.ownState h body).rate = s.rate ∧ (s.ownState h
      body).params = s.params ∧ (s.ownState h body).fingerprint = s.fingerprint ∧ (s.ownState h
      body).armed = s.armed ∧ (s.ownState h body).rx = s.rx ∧ (s.ownState h body).rxRecessive =
      s.rxRecessive ∧ (s.ownState h body).streak = s.streak ∧ (s.ownState h body).stage = s.stage ∧
      (s.ownState h body).pending = s.pending ∧ (s.ownState h body).port.txn = s.port.txn ∧
      (s.ownState h body).port.shifted = s.port.shifted ∧ (s.ownState h body).port.response =
      s.port.response ∧ (s.ownState h body).port.commit = s.port.commit ∧ (s.ownState h
      body).port.carried = s.port.carried ∧ (s.ownState h body).port.statusOut = s.port.statusOut ∧
      (s.ownState h body).tx.onLine = s.tx.onLine ∧ (s.ownState h body).tx.breaking = s.tx.breaking
      ∧ (s.ownState h body).tx.discards = s.tx.discards ∧ (s.ownState h body).tx.yielding =
      s.tx.yielding ∧ (s.ownState h body).tx.recessive = s.tx.recessive := by
  unfold State.ownState; (repeat' split) <;> simp

@[simp] theorem State.ownStateReq_frame (h : Header) (s : State) :
    (s.ownStateReq h).inReset = s.inReset ∧ (s.ownStateReq h).csnHigh = s.csnHigh ∧ (s.ownStateReq
      h).addr = s.addr ∧ (s.ownStateReq h).rate = s.rate ∧ (s.ownStateReq h).params = s.params ∧
      (s.ownStateReq h).fingerprint = s.fingerprint ∧ (s.ownStateReq h).tick = s.tick ∧
      (s.ownStateReq h).armed = s.armed ∧ (s.ownStateReq h).lastClaimed = s.lastClaimed ∧
      (s.ownStateReq h).tx = s.tx ∧ (s.ownStateReq h).rx = s.rx ∧ (s.ownStateReq h).rxRecessive =
      s.rxRecessive ∧ (s.ownStateReq h).table = s.table ∧ (s.ownStateReq h).stepState = s.stepState
      ∧ (s.ownStateReq h).listeningEnd = s.listeningEnd ∧ (s.ownStateReq h).streak = s.streak ∧
      (s.ownStateReq h).roster = s.roster ∧ (s.ownStateReq h).lastSent = s.lastSent ∧ (s.ownStateReq
      h).requester = s.requester ∧ (s.ownStateReq h).orders = s.orders ∧ (s.ownStateReq h).port =
      s.port ∧ (s.ownStateReq h).stage = s.stage ∧ (s.ownStateReq h).flags = s.flags ∧
      (s.ownStateReq h).attention = s.attention ∧ (s.ownStateReq h).counters = s.counters ∧
      (s.ownStateReq h).pending = s.pending := by
  unfold State.ownStateReq; (repeat' split) <;> simp

@[simp] theorem State.completed_frame (s : State) :
    s.completed.inReset = s.inReset ∧ s.completed.csnHigh = s.csnHigh ∧ s.completed.addr = s.addr
      ∧ s.completed.rate = s.rate ∧ s.completed.params = s.params ∧ s.completed.fingerprint =
      s.fingerprint ∧ s.completed.tick = s.tick ∧ s.completed.armed = s.armed ∧
      s.completed.lastClaimed = s.lastClaimed ∧ s.completed.table = s.table ∧ s.completed.stepState
      = s.stepState ∧ s.completed.listeningEnd = s.listeningEnd ∧ s.completed.streak = s.streak ∧
      s.completed.roster = s.roster ∧ s.completed.requester = s.requester ∧ s.completed.responder =
      s.responder ∧ s.completed.orders = s.orders ∧ s.completed.port = s.port ∧ s.completed.stage =
      s.stage ∧ s.completed.flags = s.flags ∧ s.completed.attention = s.attention ∧
      s.completed.counters = s.counters ∧ s.completed.pending = s.pending := by
  simp [State.completed]

@[simp] theorem State.applyOwn_frame (body : Sequenced) (s : State) :
    (s.applyOwn body).inReset = s.inReset ∧ (s.applyOwn body).csnHigh = s.csnHigh ∧ (s.applyOwn
      body).addr = s.addr ∧ (s.applyOwn body).rate = s.rate ∧ (s.applyOwn body).params = s.params ∧
      (s.applyOwn body).fingerprint = s.fingerprint ∧ (s.applyOwn body).tick = s.tick ∧ (s.applyOwn
      body).armed = s.armed ∧ (s.applyOwn body).lastClaimed = s.lastClaimed ∧ (s.applyOwn body).rx =
      s.rx ∧ (s.applyOwn body).rxRecessive = s.rxRecessive ∧ (s.applyOwn body).stepState =
      s.stepState ∧ (s.applyOwn body).listeningEnd = s.listeningEnd ∧ (s.applyOwn body).streak =
      s.streak ∧ (s.applyOwn body).roster = s.roster ∧ (s.applyOwn body).lastSent = s.lastSent ∧
      (s.applyOwn body).requester = s.requester ∧ (s.applyOwn body).responder = s.responder ∧
      (s.applyOwn body).stage = s.stage ∧ (s.applyOwn body).pending = s.pending ∧ (s.applyOwn
      body).port.txn = s.port.txn ∧ (s.applyOwn body).port.shifted = s.port.shifted ∧ (s.applyOwn
      body).port.response = s.port.response ∧ (s.applyOwn body).port.commit = s.port.commit ∧
      (s.applyOwn body).port.carried = s.port.carried ∧ (s.applyOwn body).port.statusOut =
      s.port.statusOut ∧ (s.applyOwn body).tx.onLine = s.tx.onLine ∧ (s.applyOwn body).tx.breaking =
      s.tx.breaking ∧ (s.applyOwn body).tx.discards = s.tx.discards ∧ (s.applyOwn body).tx.yielding
      = s.tx.yielding ∧ (s.applyOwn body).tx.recessive = s.tx.recessive := by
  unfold State.applyOwn; (repeat' split) <;> simp

@[simp] theorem State.found_frame (s : State) :
    s.found.inReset = s.inReset ∧ s.found.csnHigh = s.csnHigh ∧ s.found.addr = s.addr ∧
      s.found.rate = s.rate ∧ s.found.params = s.params ∧ s.found.fingerprint = s.fingerprint ∧
      s.found.tick = s.tick ∧ s.found.armed = s.armed ∧ s.found.lastClaimed = s.lastClaimed ∧
      s.found.rx = s.rx ∧ s.found.rxRecessive = s.rxRecessive ∧ s.found.streak = s.streak ∧
      s.found.roster = s.roster ∧ s.found.requester = s.requester ∧ s.found.responder = s.responder
      ∧ s.found.orders = s.orders ∧ s.found.port = s.port ∧ s.found.stage = s.stage ∧ s.found.flags
      = s.flags ∧ s.found.attention = s.attention ∧ s.found.counters = s.counters ∧ s.found.pending
      = s.pending ∧ s.found.tx.onLine = s.tx.onLine ∧ s.found.tx.breaking = s.tx.breaking ∧
      s.found.tx.discards = s.tx.discards ∧ s.found.tx.yielding = s.tx.yielding ∧
      s.found.tx.recessive = s.tx.recessive := by
  unfold State.found; dsimp only; (repeat' split) <;> simp

@[simp] theorem State.markAbsent_frame (s : State) :
    s.markAbsent.inReset = s.inReset ∧ s.markAbsent.csnHigh = s.csnHigh ∧ s.markAbsent.addr =
      s.addr ∧ s.markAbsent.rate = s.rate ∧ s.markAbsent.params = s.params ∧
      s.markAbsent.fingerprint = s.fingerprint ∧ s.markAbsent.tick = s.tick ∧ s.markAbsent.armed =
      s.armed ∧ s.markAbsent.lastClaimed = s.lastClaimed ∧ s.markAbsent.tx = s.tx ∧ s.markAbsent.rx
      = s.rx ∧ s.markAbsent.rxRecessive = s.rxRecessive ∧ s.markAbsent.table = s.table ∧
      s.markAbsent.stepState = s.stepState ∧ s.markAbsent.listeningEnd = s.listeningEnd ∧
      s.markAbsent.lastSent = s.lastSent ∧ s.markAbsent.requester = s.requester ∧
      s.markAbsent.responder = s.responder ∧ s.markAbsent.orders = s.orders ∧ s.markAbsent.port =
      s.port ∧ s.markAbsent.stage = s.stage ∧ s.markAbsent.flags = s.flags ∧ s.markAbsent.attention
      = s.attention ∧ s.markAbsent.counters = s.counters ∧ s.markAbsent.pending = s.pending := by
  simp [State.markAbsent]

/-! ### Sys2Proof/Machine/Bus.lean -/

@[simp] theorem State.startHead_frame (e : Entry) (es : List Entry) (s : State) :
    (s.startHead e es).inReset = s.inReset ∧ (s.startHead e es).csnHigh = s.csnHigh ∧ (s.startHead
      e es).addr = s.addr ∧ (s.startHead e es).rate = s.rate ∧ (s.startHead e es).params = s.params
      ∧ (s.startHead e es).fingerprint = s.fingerprint ∧ (s.startHead e es).tick = s.tick ∧
      (s.startHead e es).armed = s.armed ∧ (s.startHead e es).lastClaimed = s.lastClaimed ∧
      (s.startHead e es).table = s.table ∧ (s.startHead e es).stepState = s.stepState ∧ (s.startHead
      e es).listeningEnd = s.listeningEnd ∧ (s.startHead e es).streak = s.streak ∧ (s.startHead e
      es).roster = s.roster ∧ (s.startHead e es).lastSent = s.lastSent ∧ (s.startHead e
      es).requester = s.requester ∧ (s.startHead e es).responder = s.responder ∧ (s.startHead e
      es).orders = s.orders ∧ (s.startHead e es).port = s.port ∧ (s.startHead e es).stage = s.stage
      ∧ (s.startHead e es).flags = s.flags ∧ (s.startHead e es).attention = s.attention ∧
      (s.startHead e es).counters = s.counters ∧ (s.startHead e es).pending = s.pending := by
  simp [State.startHead]

@[simp] theorem State.start_frame (n : Nat) (s : State) :
    (s.start n).inReset = s.inReset ∧ (s.start n).csnHigh = s.csnHigh ∧ (s.start n).addr = s.addr
      ∧ (s.start n).rate = s.rate ∧ (s.start n).params = s.params ∧ (s.start n).fingerprint =
      s.fingerprint ∧ (s.start n).tick = s.tick ∧ (s.start n).armed = s.armed ∧ (s.start
      n).lastClaimed = s.lastClaimed ∧ (s.start n).table = s.table ∧ (s.start n).stepState =
      s.stepState ∧ (s.start n).listeningEnd = s.listeningEnd ∧ (s.start n).streak = s.streak ∧
      (s.start n).roster = s.roster ∧ (s.start n).lastSent = s.lastSent ∧ (s.start n).requester =
      s.requester ∧ (s.start n).responder = s.responder ∧ (s.start n).orders = s.orders ∧ (s.start
      n).port = s.port ∧ (s.start n).stage = s.stage ∧ (s.start n).flags = s.flags ∧ (s.start
      n).attention = s.attention ∧ (s.start n).counters = s.counters ∧ (s.start n).pending =
      s.pending := by
  unfold State.start; (repeat' split) <;> simp

@[simp] theorem State.recheck_frame (k : Kind) (s : State) :
    (s.recheck k).inReset = s.inReset ∧ (s.recheck k).csnHigh = s.csnHigh ∧ (s.recheck k).addr =
      s.addr ∧ (s.recheck k).rate = s.rate ∧ (s.recheck k).params = s.params ∧ (s.recheck
      k).fingerprint = s.fingerprint ∧ (s.recheck k).tick = s.tick ∧ (s.recheck k).armed = s.armed ∧
      (s.recheck k).lastClaimed = s.lastClaimed ∧ (s.recheck k).rx = s.rx ∧ (s.recheck
      k).rxRecessive = s.rxRecessive ∧ (s.recheck k).table = s.table ∧ (s.recheck k).stepState =
      s.stepState ∧ (s.recheck k).listeningEnd = s.listeningEnd ∧ (s.recheck k).streak = s.streak ∧
      (s.recheck k).roster = s.roster ∧ (s.recheck k).lastSent = s.lastSent ∧ (s.recheck
      k).requester = s.requester ∧ (s.recheck k).responder = s.responder ∧ (s.recheck k).orders =
      s.orders ∧ (s.recheck k).port = s.port ∧ (s.recheck k).stage = s.stage ∧ (s.recheck k).flags =
      s.flags ∧ (s.recheck k).attention = s.attention ∧ (s.recheck k).counters = s.counters ∧
      (s.recheck k).pending = s.pending ∧ (s.recheck k).tx.onLine = s.tx.onLine ∧ (s.recheck
      k).tx.breaking = s.tx.breaking ∧ (s.recheck k).tx.discards = s.tx.discards ∧ (s.recheck
      k).tx.yielding = s.tx.yielding ∧ (s.recheck k).tx.recessive = s.tx.recessive := by
  cases k <;> simp [State.recheck]

@[simp] theorem State.afterDiscard_frame (k : Kind) (s : State) :
    (s.afterDiscard k).inReset = s.inReset ∧ (s.afterDiscard k).csnHigh = s.csnHigh ∧
      (s.afterDiscard k).addr = s.addr ∧ (s.afterDiscard k).rate = s.rate ∧ (s.afterDiscard
      k).params = s.params ∧ (s.afterDiscard k).fingerprint = s.fingerprint ∧ (s.afterDiscard
      k).tick = s.tick ∧ (s.afterDiscard k).armed = s.armed ∧ (s.afterDiscard k).lastClaimed =
      s.lastClaimed ∧ (s.afterDiscard k).rx = s.rx ∧ (s.afterDiscard k).rxRecessive = s.rxRecessive
      ∧ (s.afterDiscard k).table = s.table ∧ (s.afterDiscard k).stepState = s.stepState ∧
      (s.afterDiscard k).listeningEnd = s.listeningEnd ∧ (s.afterDiscard k).streak = s.streak ∧
      (s.afterDiscard k).roster = s.roster ∧ (s.afterDiscard k).lastSent = s.lastSent ∧
      (s.afterDiscard k).requester = s.requester ∧ (s.afterDiscard k).orders = s.orders ∧
      (s.afterDiscard k).port = s.port ∧ (s.afterDiscard k).stage = s.stage ∧ (s.afterDiscard
      k).flags = s.flags ∧ (s.afterDiscard k).attention = s.attention ∧ (s.afterDiscard k).counters
      = s.counters ∧ (s.afterDiscard k).pending = s.pending ∧ (s.afterDiscard k).tx.onLine =
      s.tx.onLine ∧ (s.afterDiscard k).tx.breaking = s.tx.breaking ∧ (s.afterDiscard k).tx.discards
      = s.tx.discards ∧ (s.afterDiscard k).tx.yielding = s.tx.yielding ∧ (s.afterDiscard
      k).tx.recessive = s.tx.recessive := by
  cases k <;> simp only [State.afterDiscard] <;> (try split) <;> simp

@[simp] theorem State.returnEntry_frame (e : Entry) (f : Entry → Entry) (s : State) :
    (s.returnEntry e f).inReset = s.inReset ∧ (s.returnEntry e f).csnHigh = s.csnHigh ∧
      (s.returnEntry e f).addr = s.addr ∧ (s.returnEntry e f).rate = s.rate ∧ (s.returnEntry e
      f).params = s.params ∧ (s.returnEntry e f).fingerprint = s.fingerprint ∧ (s.returnEntry e
      f).tick = s.tick ∧ (s.returnEntry e f).armed = s.armed ∧ (s.returnEntry e f).lastClaimed =
      s.lastClaimed ∧ (s.returnEntry e f).rx = s.rx ∧ (s.returnEntry e f).rxRecessive =
      s.rxRecessive ∧ (s.returnEntry e f).table = s.table ∧ (s.returnEntry e f).stepState =
      s.stepState ∧ (s.returnEntry e f).listeningEnd = s.listeningEnd ∧ (s.returnEntry e f).streak =
      s.streak ∧ (s.returnEntry e f).roster = s.roster ∧ (s.returnEntry e f).lastSent = s.lastSent ∧
      (s.returnEntry e f).requester = s.requester ∧ (s.returnEntry e f).responder = s.responder ∧
      (s.returnEntry e f).orders = s.orders ∧ (s.returnEntry e f).port = s.port ∧ (s.returnEntry e
      f).stage = s.stage ∧ (s.returnEntry e f).flags = s.flags ∧ (s.returnEntry e f).attention =
      s.attention ∧ (s.returnEntry e f).pending = s.pending := by
  unfold State.returnEntry; dsimp only; (repeat' split) <;> simp

@[simp] theorem State.loseArbitration_frame (e : Entry) (s : State) :
    (s.loseArbitration e).inReset = s.inReset ∧ (s.loseArbitration e).csnHigh = s.csnHigh ∧
      (s.loseArbitration e).addr = s.addr ∧ (s.loseArbitration e).rate = s.rate ∧ (s.loseArbitration
      e).params = s.params ∧ (s.loseArbitration e).fingerprint = s.fingerprint ∧ (s.loseArbitration
      e).tick = s.tick ∧ (s.loseArbitration e).armed = s.armed ∧ (s.loseArbitration e).lastClaimed =
      s.lastClaimed ∧ (s.loseArbitration e).table = s.table ∧ (s.loseArbitration e).stepState =
      s.stepState ∧ (s.loseArbitration e).listeningEnd = s.listeningEnd ∧ (s.loseArbitration
      e).streak = s.streak ∧ (s.loseArbitration e).roster = s.roster ∧ (s.loseArbitration
      e).lastSent = s.lastSent ∧ (s.loseArbitration e).requester = s.requester ∧ (s.loseArbitration
      e).responder = s.responder ∧ (s.loseArbitration e).orders = s.orders ∧ (s.loseArbitration
      e).port = s.port ∧ (s.loseArbitration e).stage = s.stage ∧ (s.loseArbitration e).flags =
      s.flags ∧ (s.loseArbitration e).attention = s.attention ∧ (s.loseArbitration e).pending =
      s.pending := by
  simp [State.loseArbitration]

@[simp] theorem State.driveBreak_frame (s : State) :
    s.driveBreak.inReset = s.inReset ∧ s.driveBreak.csnHigh = s.csnHigh ∧ s.driveBreak.addr =
      s.addr ∧ s.driveBreak.rate = s.rate ∧ s.driveBreak.params = s.params ∧
      s.driveBreak.fingerprint = s.fingerprint ∧ s.driveBreak.tick = s.tick ∧ s.driveBreak.armed =
      s.armed ∧ s.driveBreak.lastClaimed = s.lastClaimed ∧ s.driveBreak.table = s.table ∧
      s.driveBreak.stepState = s.stepState ∧ s.driveBreak.listeningEnd = s.listeningEnd ∧
      s.driveBreak.streak = s.streak ∧ s.driveBreak.roster = s.roster ∧ s.driveBreak.lastSent =
      s.lastSent ∧ s.driveBreak.requester = s.requester ∧ s.driveBreak.responder = s.responder ∧
      s.driveBreak.orders = s.orders ∧ s.driveBreak.port = s.port ∧ s.driveBreak.stage = s.stage ∧
      s.driveBreak.flags = s.flags ∧ s.driveBreak.attention = s.attention ∧ s.driveBreak.counters =
      s.counters ∧ s.driveBreak.pending = s.pending := by
  simp [State.driveBreak]

@[simp] theorem State.discard_frame (e : Entry) (s : State) :
    (s.discard e).inReset = s.inReset ∧ (s.discard e).csnHigh = s.csnHigh ∧ (s.discard e).addr =
      s.addr ∧ (s.discard e).rate = s.rate ∧ (s.discard e).params = s.params ∧ (s.discard
      e).fingerprint = s.fingerprint ∧ (s.discard e).tick = s.tick ∧ (s.discard e).armed = s.armed ∧
      (s.discard e).lastClaimed = s.lastClaimed ∧ (s.discard e).rx = s.rx ∧ (s.discard
      e).rxRecessive = s.rxRecessive ∧ (s.discard e).streak = s.streak ∧ (s.discard e).roster =
      s.roster ∧ (s.discard e).lastSent = s.lastSent ∧ (s.discard e).orders = s.orders ∧ (s.discard
      e).stage = s.stage ∧ (s.discard e).pending = s.pending ∧ (s.discard e).port.txn = s.port.txn ∧
      (s.discard e).port.shifted = s.port.shifted ∧ (s.discard e).port.response = s.port.response ∧
      (s.discard e).port.commit = s.port.commit ∧ (s.discard e).port.carried = s.port.carried ∧
      (s.discard e).port.statusOut = s.port.statusOut := by
  unfold State.discard; dsimp only; (repeat' split) <;> simp

@[simp] theorem State.bitError_frame (e : Entry) (s : State) :
    (s.bitError e).inReset = s.inReset ∧ (s.bitError e).csnHigh = s.csnHigh ∧ (s.bitError e).addr
      = s.addr ∧ (s.bitError e).rate = s.rate ∧ (s.bitError e).params = s.params ∧ (s.bitError
      e).fingerprint = s.fingerprint ∧ (s.bitError e).tick = s.tick ∧ (s.bitError e).armed = s.armed
      ∧ (s.bitError e).lastClaimed = s.lastClaimed ∧ (s.bitError e).streak = s.streak ∧ (s.bitError
      e).roster = s.roster ∧ (s.bitError e).lastSent = s.lastSent ∧ (s.bitError e).orders = s.orders
      ∧ (s.bitError e).stage = s.stage ∧ (s.bitError e).pending = s.pending ∧ (s.bitError
      e).port.txn = s.port.txn ∧ (s.bitError e).port.shifted = s.port.shifted ∧ (s.bitError
      e).port.response = s.port.response ∧ (s.bitError e).port.commit = s.port.commit ∧ (s.bitError
      e).port.carried = s.port.carried ∧ (s.bitError e).port.statusOut = s.port.statusOut := by
  unfold State.bitError; dsimp only; (repeat' split) <;> simp

@[simp] theorem State.discardFrame_frame (s : State) :
    s.discardFrame.inReset = s.inReset ∧ s.discardFrame.csnHigh = s.csnHigh ∧ s.discardFrame.addr
      = s.addr ∧ s.discardFrame.rate = s.rate ∧ s.discardFrame.params = s.params ∧
      s.discardFrame.fingerprint = s.fingerprint ∧ s.discardFrame.tick = s.tick ∧
      s.discardFrame.armed = s.armed ∧ s.discardFrame.lastClaimed = s.lastClaimed ∧
      s.discardFrame.table = s.table ∧ s.discardFrame.stepState = s.stepState ∧
      s.discardFrame.listeningEnd = s.listeningEnd ∧ s.discardFrame.streak = s.streak ∧
      s.discardFrame.roster = s.roster ∧ s.discardFrame.lastSent = s.lastSent ∧
      s.discardFrame.requester = s.requester ∧ s.discardFrame.responder = s.responder ∧
      s.discardFrame.orders = s.orders ∧ s.discardFrame.port = s.port ∧ s.discardFrame.stage =
      s.stage ∧ s.discardFrame.flags = s.flags ∧ s.discardFrame.attention = s.attention ∧
      s.discardFrame.pending = s.pending := by
  simp [State.discardFrame]

@[simp] theorem State.receiverIdle_frame (s : State) :
    s.receiverIdle.inReset = s.inReset ∧ s.receiverIdle.csnHigh = s.csnHigh ∧ s.receiverIdle.addr
      = s.addr ∧ s.receiverIdle.rate = s.rate ∧ s.receiverIdle.params = s.params ∧
      s.receiverIdle.fingerprint = s.fingerprint ∧ s.receiverIdle.tick = s.tick ∧
      s.receiverIdle.armed = s.armed ∧ s.receiverIdle.lastClaimed = s.lastClaimed ∧
      s.receiverIdle.tx = s.tx ∧ s.receiverIdle.rxRecessive = s.rxRecessive ∧ s.receiverIdle.table =
      s.table ∧ s.receiverIdle.stepState = s.stepState ∧ s.receiverIdle.listeningEnd =
      s.listeningEnd ∧ s.receiverIdle.streak = s.streak ∧ s.receiverIdle.roster = s.roster ∧
      s.receiverIdle.lastSent = s.lastSent ∧ s.receiverIdle.requester = s.requester ∧
      s.receiverIdle.responder = s.responder ∧ s.receiverIdle.orders = s.orders ∧
      s.receiverIdle.port = s.port ∧ s.receiverIdle.stage = s.stage ∧ s.receiverIdle.flags = s.flags
      ∧ s.receiverIdle.attention = s.attention ∧ s.receiverIdle.counters = s.counters ∧
      s.receiverIdle.pending = s.pending := by
  simp [State.receiverIdle]

@[simp] theorem State.requestSent_frame (s : State) :
    s.requestSent.inReset = s.inReset ∧ s.requestSent.csnHigh = s.csnHigh ∧ s.requestSent.addr =
      s.addr ∧ s.requestSent.rate = s.rate ∧ s.requestSent.params = s.params ∧
      s.requestSent.fingerprint = s.fingerprint ∧ s.requestSent.tick = s.tick ∧ s.requestSent.armed
      = s.armed ∧ s.requestSent.lastClaimed = s.lastClaimed ∧ s.requestSent.tx = s.tx ∧
      s.requestSent.rx = s.rx ∧ s.requestSent.rxRecessive = s.rxRecessive ∧ s.requestSent.table =
      s.table ∧ s.requestSent.stepState = s.stepState ∧ s.requestSent.listeningEnd = s.listeningEnd
      ∧ s.requestSent.streak = s.streak ∧ s.requestSent.roster = s.roster ∧ s.requestSent.lastSent =
      s.lastSent ∧ s.requestSent.responder = s.responder ∧ s.requestSent.orders = s.orders ∧
      s.requestSent.port = s.port ∧ s.requestSent.stage = s.stage ∧ s.requestSent.flags = s.flags ∧
      s.requestSent.attention = s.attention ∧ s.requestSent.counters = s.counters ∧
      s.requestSent.pending = s.pending := by
  unfold State.requestSent; (repeat' split) <;> simp

/-! ### Sys2Proof/Machine/Ticks.lean -/

@[simp] theorem State.testExpiry_frame (s : State) :
    s.testExpiry.inReset = s.inReset ∧ s.testExpiry.csnHigh = s.csnHigh ∧ s.testExpiry.addr =
      s.addr ∧ s.testExpiry.rate = s.rate ∧ s.testExpiry.params = s.params ∧
      s.testExpiry.fingerprint = s.fingerprint ∧ s.testExpiry.tick = s.tick ∧ s.testExpiry.armed =
      s.armed ∧ s.testExpiry.lastClaimed = s.lastClaimed ∧ s.testExpiry.rx = s.rx ∧
      s.testExpiry.rxRecessive = s.rxRecessive ∧ s.testExpiry.table = s.table ∧
      s.testExpiry.stepState = s.stepState ∧ s.testExpiry.listeningEnd = s.listeningEnd ∧
      s.testExpiry.streak = s.streak ∧ s.testExpiry.roster = s.roster ∧ s.testExpiry.lastSent =
      s.lastSent ∧ s.testExpiry.requester = s.requester ∧ s.testExpiry.responder = s.responder ∧
      s.testExpiry.orders = s.orders ∧ s.testExpiry.port = s.port ∧ s.testExpiry.stage = s.stage ∧
      s.testExpiry.flags = s.flags ∧ s.testExpiry.attention = s.attention ∧ s.testExpiry.pending =
      s.pending ∧ s.testExpiry.tx.onLine = s.tx.onLine ∧ s.testExpiry.tx.breaking = s.tx.breaking ∧
      s.testExpiry.tx.discards = s.tx.discards ∧ s.testExpiry.tx.yielding = s.tx.yielding ∧
      s.testExpiry.tx.recessive = s.tx.recessive := by
  simp [State.testExpiry]

@[simp] theorem State.testRequest_frame (s : State) :
    s.testRequest.inReset = s.inReset ∧ s.testRequest.csnHigh = s.csnHigh ∧ s.testRequest.addr =
      s.addr ∧ s.testRequest.rate = s.rate ∧ s.testRequest.params = s.params ∧
      s.testRequest.fingerprint = s.fingerprint ∧ s.testRequest.tick = s.tick ∧ s.testRequest.armed
      = s.armed ∧ s.testRequest.lastClaimed = s.lastClaimed ∧ s.testRequest.rx = s.rx ∧
      s.testRequest.rxRecessive = s.rxRecessive ∧ s.testRequest.listeningEnd = s.listeningEnd ∧
      s.testRequest.streak = s.streak ∧ s.testRequest.roster = s.roster ∧ s.testRequest.lastSent =
      s.lastSent ∧ s.testRequest.responder = s.responder ∧ s.testRequest.orders = s.orders ∧
      s.testRequest.stage = s.stage ∧ s.testRequest.pending = s.pending ∧ s.testRequest.port.txn =
      s.port.txn ∧ s.testRequest.port.shifted = s.port.shifted ∧ s.testRequest.port.response =
      s.port.response ∧ s.testRequest.port.commit = s.port.commit ∧ s.testRequest.port.carried =
      s.port.carried ∧ s.testRequest.port.statusOut = s.port.statusOut ∧ s.testRequest.tx.onLine =
      s.tx.onLine ∧ s.testRequest.tx.breaking = s.tx.breaking ∧ s.testRequest.tx.discards =
      s.tx.discards ∧ s.testRequest.tx.yielding = s.tx.yielding ∧ s.testRequest.tx.recessive =
      s.tx.recessive := by
  unfold State.testRequest; (repeat' split) <;> simp

@[simp] theorem State.testChunk_frame (s : State) :
    s.testChunk.inReset = s.inReset ∧ s.testChunk.csnHigh = s.csnHigh ∧ s.testChunk.addr = s.addr
      ∧ s.testChunk.rate = s.rate ∧ s.testChunk.params = s.params ∧ s.testChunk.fingerprint =
      s.fingerprint ∧ s.testChunk.tick = s.tick ∧ s.testChunk.armed = s.armed ∧
      s.testChunk.lastClaimed = s.lastClaimed ∧ s.testChunk.rx = s.rx ∧ s.testChunk.rxRecessive =
      s.rxRecessive ∧ s.testChunk.listeningEnd = s.listeningEnd ∧ s.testChunk.streak = s.streak ∧
      s.testChunk.roster = s.roster ∧ s.testChunk.lastSent = s.lastSent ∧ s.testChunk.responder =
      s.responder ∧ s.testChunk.orders = s.orders ∧ s.testChunk.stage = s.stage ∧
      s.testChunk.pending = s.pending ∧ s.testChunk.port.txn = s.port.txn ∧ s.testChunk.port.shifted
      = s.port.shifted ∧ s.testChunk.port.response = s.port.response ∧ s.testChunk.port.commit =
      s.port.commit ∧ s.testChunk.port.carried = s.port.carried ∧ s.testChunk.port.statusOut =
      s.port.statusOut ∧ s.testChunk.tx.onLine = s.tx.onLine ∧ s.testChunk.tx.breaking =
      s.tx.breaking ∧ s.testChunk.tx.discards = s.tx.discards ∧ s.testChunk.tx.yielding =
      s.tx.yielding ∧ s.testChunk.tx.recessive = s.tx.recessive := by
  unfold State.testChunk; (repeat' split) <;> simp

@[simp] theorem State.testRetry_frame (s : State) :
    s.testRetry.inReset = s.inReset ∧ s.testRetry.csnHigh = s.csnHigh ∧ s.testRetry.addr = s.addr
      ∧ s.testRetry.rate = s.rate ∧ s.testRetry.params = s.params ∧ s.testRetry.fingerprint =
      s.fingerprint ∧ s.testRetry.tick = s.tick ∧ s.testRetry.armed = s.armed ∧
      s.testRetry.lastClaimed = s.lastClaimed ∧ s.testRetry.rx = s.rx ∧ s.testRetry.rxRecessive =
      s.rxRecessive ∧ s.testRetry.table = s.table ∧ s.testRetry.stepState = s.stepState ∧
      s.testRetry.listeningEnd = s.listeningEnd ∧ s.testRetry.streak = s.streak ∧ s.testRetry.roster
      = s.roster ∧ s.testRetry.lastSent = s.lastSent ∧ s.testRetry.responder = s.responder ∧
      s.testRetry.orders = s.orders ∧ s.testRetry.port = s.port ∧ s.testRetry.stage = s.stage ∧
      s.testRetry.flags = s.flags ∧ s.testRetry.attention = s.attention ∧ s.testRetry.counters =
      s.counters ∧ s.testRetry.pending = s.pending ∧ s.testRetry.tx.onLine = s.tx.onLine ∧
      s.testRetry.tx.breaking = s.tx.breaking ∧ s.testRetry.tx.discards = s.tx.discards ∧
      s.testRetry.tx.yielding = s.tx.yielding ∧ s.testRetry.tx.recessive = s.tx.recessive := by
  unfold State.testRetry; (repeat' split) <;> simp

@[simp] theorem State.testDelay_frame (s : State) :
    s.testDelay.inReset = s.inReset ∧ s.testDelay.csnHigh = s.csnHigh ∧ s.testDelay.addr = s.addr
      ∧ s.testDelay.rate = s.rate ∧ s.testDelay.params = s.params ∧ s.testDelay.fingerprint =
      s.fingerprint ∧ s.testDelay.tick = s.tick ∧ s.testDelay.armed = s.armed ∧
      s.testDelay.lastClaimed = s.lastClaimed ∧ s.testDelay.rx = s.rx ∧ s.testDelay.rxRecessive =
      s.rxRecessive ∧ s.testDelay.table = s.table ∧ s.testDelay.stepState = s.stepState ∧
      s.testDelay.listeningEnd = s.listeningEnd ∧ s.testDelay.streak = s.streak ∧ s.testDelay.roster
      = s.roster ∧ s.testDelay.lastSent = s.lastSent ∧ s.testDelay.requester = s.requester ∧
      s.testDelay.orders = s.orders ∧ s.testDelay.port = s.port ∧ s.testDelay.stage = s.stage ∧
      s.testDelay.flags = s.flags ∧ s.testDelay.attention = s.attention ∧ s.testDelay.counters =
      s.counters ∧ s.testDelay.pending = s.pending ∧ s.testDelay.tx.onLine = s.tx.onLine ∧
      s.testDelay.tx.breaking = s.tx.breaking ∧ s.testDelay.tx.discards = s.tx.discards ∧
      s.testDelay.tx.yielding = s.tx.yielding ∧ s.testDelay.tx.recessive = s.tx.recessive := by
  unfold State.testDelay; (repeat' split) <;> simp

@[simp] theorem State.testListening_frame (s : State) :
    s.testListening.inReset = s.inReset ∧ s.testListening.csnHigh = s.csnHigh ∧
      s.testListening.addr = s.addr ∧ s.testListening.rate = s.rate ∧ s.testListening.params =
      s.params ∧ s.testListening.fingerprint = s.fingerprint ∧ s.testListening.tick = s.tick ∧
      s.testListening.armed = s.armed ∧ s.testListening.lastClaimed = s.lastClaimed ∧
      s.testListening.rx = s.rx ∧ s.testListening.rxRecessive = s.rxRecessive ∧
      s.testListening.streak = s.streak ∧ s.testListening.roster = s.roster ∧
      s.testListening.requester = s.requester ∧ s.testListening.responder = s.responder ∧
      s.testListening.orders = s.orders ∧ s.testListening.port = s.port ∧ s.testListening.stage =
      s.stage ∧ s.testListening.flags = s.flags ∧ s.testListening.attention = s.attention ∧
      s.testListening.counters = s.counters ∧ s.testListening.pending = s.pending ∧
      s.testListening.tx.onLine = s.tx.onLine ∧ s.testListening.tx.breaking = s.tx.breaking ∧
      s.testListening.tx.discards = s.tx.discards ∧ s.testListening.tx.yielding = s.tx.yielding ∧
      s.testListening.tx.recessive = s.tx.recessive := by
  unfold State.testListening; (repeat' split) <;> simp

@[simp] theorem State.offerTick_frame (s : State) :
    s.offerTick.inReset = s.inReset ∧ s.offerTick.csnHigh = s.csnHigh ∧ s.offerTick.addr = s.addr
      ∧ s.offerTick.rate = s.rate ∧ s.offerTick.params = s.params ∧ s.offerTick.fingerprint =
      s.fingerprint ∧ s.offerTick.tick = s.tick ∧ s.offerTick.armed = s.armed ∧
      s.offerTick.lastClaimed = s.lastClaimed ∧ s.offerTick.rx = s.rx ∧ s.offerTick.rxRecessive =
      s.rxRecessive ∧ s.offerTick.orders = s.orders ∧ s.offerTick.stage = s.stage ∧
      s.offerTick.pending = s.pending ∧ s.offerTick.port.txn = s.port.txn ∧ s.offerTick.port.shifted
      = s.port.shifted ∧ s.offerTick.port.response = s.port.response ∧ s.offerTick.port.commit =
      s.port.commit ∧ s.offerTick.port.carried = s.port.carried ∧ s.offerTick.port.statusOut =
      s.port.statusOut ∧ s.offerTick.tx.onLine = s.tx.onLine ∧ s.offerTick.tx.breaking =
      s.tx.breaking ∧ s.offerTick.tx.discards = s.tx.discards ∧ s.offerTick.tx.yielding =
      s.tx.yielding ∧ s.offerTick.tx.recessive = s.tx.recessive := by
  simp [State.offerTick]

/-! ### Sys2Proof/Machine/Trigger.lean -/

@[simp] theorem State.claimEdge_frame (s : State) :
    s.claimEdge.inReset = s.inReset ∧ s.claimEdge.csnHigh = s.csnHigh ∧ s.claimEdge.addr = s.addr
      ∧ s.claimEdge.rate = s.rate ∧ s.claimEdge.params = s.params ∧ s.claimEdge.fingerprint =
      s.fingerprint ∧ s.claimEdge.tick = s.tick ∧ s.claimEdge.armed = s.armed ∧ s.claimEdge.rx =
      s.rx ∧ s.claimEdge.rxRecessive = s.rxRecessive ∧ s.claimEdge.table = s.table ∧
      s.claimEdge.stepState = s.stepState ∧ s.claimEdge.listeningEnd = s.listeningEnd ∧
      s.claimEdge.streak = s.streak ∧ s.claimEdge.roster = s.roster ∧ s.claimEdge.lastSent =
      s.lastSent ∧ s.claimEdge.requester = s.requester ∧ s.claimEdge.responder = s.responder ∧
      s.claimEdge.orders = s.orders ∧ s.claimEdge.stage = s.stage ∧ s.claimEdge.pending = s.pending
      ∧ s.claimEdge.port.txn = s.port.txn ∧ s.claimEdge.port.shifted = s.port.shifted ∧
      s.claimEdge.port.response = s.port.response ∧ s.claimEdge.port.commit = s.port.commit ∧
      s.claimEdge.port.carried = s.port.carried ∧ s.claimEdge.port.statusOut = s.port.statusOut ∧
      s.claimEdge.tx.onLine = s.tx.onLine ∧ s.claimEdge.tx.breaking = s.tx.breaking ∧
      s.claimEdge.tx.discards = s.tx.discards ∧ s.claimEdge.tx.yielding = s.tx.yielding ∧
      s.claimEdge.tx.recessive = s.tx.recessive := by
  unfold State.claimEdge; (repeat' split) <;> simp

@[simp] theorem State.decideEdge_frame (s : State) :
    s.decideEdge.inReset = s.inReset ∧ s.decideEdge.csnHigh = s.csnHigh ∧ s.decideEdge.addr =
      s.addr ∧ s.decideEdge.rate = s.rate ∧ s.decideEdge.params = s.params ∧
      s.decideEdge.fingerprint = s.fingerprint ∧ s.decideEdge.tick = s.tick ∧ s.decideEdge.armed =
      s.armed ∧ s.decideEdge.rx = s.rx ∧ s.decideEdge.rxRecessive = s.rxRecessive ∧
      s.decideEdge.table = s.table ∧ s.decideEdge.stepState = s.stepState ∧
      s.decideEdge.listeningEnd = s.listeningEnd ∧ s.decideEdge.streak = s.streak ∧
      s.decideEdge.roster = s.roster ∧ s.decideEdge.lastSent = s.lastSent ∧ s.decideEdge.requester =
      s.requester ∧ s.decideEdge.responder = s.responder ∧ s.decideEdge.orders = s.orders ∧
      s.decideEdge.stage = s.stage ∧ s.decideEdge.pending = s.pending ∧ s.decideEdge.port.txn =
      s.port.txn ∧ s.decideEdge.port.shifted = s.port.shifted ∧ s.decideEdge.port.response =
      s.port.response ∧ s.decideEdge.port.commit = s.port.commit ∧ s.decideEdge.port.carried =
      s.port.carried ∧ s.decideEdge.port.statusOut = s.port.statusOut ∧ s.decideEdge.tx.onLine =
      s.tx.onLine ∧ s.decideEdge.tx.breaking = s.tx.breaking ∧ s.decideEdge.tx.discards =
      s.tx.discards ∧ s.decideEdge.tx.yielding = s.tx.yielding ∧ s.decideEdge.tx.recessive =
      s.tx.recessive := by
  unfold State.decideEdge; (repeat' split) <;> simp

/-! ### Sys2Proof/Machine/Board.lean -/

@[simp] theorem State.shiftIn_frame (bytes : List Byte) (s : State) :
    (s.shiftIn bytes).inReset = s.inReset ∧ (s.shiftIn bytes).csnHigh = s.csnHigh ∧ (s.shiftIn
      bytes).addr = s.addr ∧ (s.shiftIn bytes).rate = s.rate ∧ (s.shiftIn bytes).params = s.params ∧
      (s.shiftIn bytes).fingerprint = s.fingerprint ∧ (s.shiftIn bytes).tick = s.tick ∧ (s.shiftIn
      bytes).armed = s.armed ∧ (s.shiftIn bytes).lastClaimed = s.lastClaimed ∧ (s.shiftIn bytes).tx
      = s.tx ∧ (s.shiftIn bytes).rx = s.rx ∧ (s.shiftIn bytes).rxRecessive = s.rxRecessive ∧
      (s.shiftIn bytes).table = s.table ∧ (s.shiftIn bytes).stepState = s.stepState ∧ (s.shiftIn
      bytes).listeningEnd = s.listeningEnd ∧ (s.shiftIn bytes).streak = s.streak ∧ (s.shiftIn
      bytes).roster = s.roster ∧ (s.shiftIn bytes).lastSent = s.lastSent ∧ (s.shiftIn
      bytes).requester = s.requester ∧ (s.shiftIn bytes).responder = s.responder ∧ (s.shiftIn
      bytes).orders = s.orders ∧ (s.shiftIn bytes).stage = s.stage ∧ (s.shiftIn bytes).flags =
      s.flags ∧ (s.shiftIn bytes).attention = s.attention ∧ (s.shiftIn bytes).counters = s.counters
      ∧ (s.shiftIn bytes).pending = s.pending ∧ (s.shiftIn bytes).port.response = s.port.response ∧
      (s.shiftIn bytes).port.commit = s.port.commit ∧ (s.shiftIn bytes).port.carried =
      s.port.carried ∧ (s.shiftIn bytes).port.fresh = s.port.fresh ∧ (s.shiftIn
      bytes).port.statusOut = s.port.statusOut := by
  unfold State.shiftIn; (repeat' split) <;> simp

@[simp] theorem State.openTransaction_frame (bytes : List Byte) (s : State) :
    (s.openTransaction bytes).inReset = s.inReset ∧ (s.openTransaction bytes).addr = s.addr ∧
      (s.openTransaction bytes).rate = s.rate ∧ (s.openTransaction bytes).params = s.params ∧
      (s.openTransaction bytes).fingerprint = s.fingerprint ∧ (s.openTransaction bytes).tick =
      s.tick ∧ (s.openTransaction bytes).armed = s.armed ∧ (s.openTransaction bytes).lastClaimed =
      s.lastClaimed ∧ (s.openTransaction bytes).tx = s.tx ∧ (s.openTransaction bytes).rx = s.rx ∧
      (s.openTransaction bytes).rxRecessive = s.rxRecessive ∧ (s.openTransaction bytes).table =
      s.table ∧ (s.openTransaction bytes).stepState = s.stepState ∧ (s.openTransaction
      bytes).listeningEnd = s.listeningEnd ∧ (s.openTransaction bytes).streak = s.streak ∧
      (s.openTransaction bytes).roster = s.roster ∧ (s.openTransaction bytes).lastSent = s.lastSent
      ∧ (s.openTransaction bytes).requester = s.requester ∧ (s.openTransaction bytes).responder =
      s.responder ∧ (s.openTransaction bytes).orders = s.orders ∧ (s.openTransaction bytes).stage =
      s.stage ∧ (s.openTransaction bytes).flags = s.flags ∧ (s.openTransaction bytes).attention =
      s.attention ∧ (s.openTransaction bytes).counters = s.counters ∧ (s.openTransaction
      bytes).pending = s.pending := by
  unfold State.openTransaction; (repeat' split) <;> simp

@[simp] theorem State.endStatusByte_frame (s : State) :
    s.endStatusByte.inReset = s.inReset ∧ s.endStatusByte.csnHigh = s.csnHigh ∧
      s.endStatusByte.addr = s.addr ∧ s.endStatusByte.rate = s.rate ∧ s.endStatusByte.params =
      s.params ∧ s.endStatusByte.fingerprint = s.fingerprint ∧ s.endStatusByte.tick = s.tick ∧
      s.endStatusByte.armed = s.armed ∧ s.endStatusByte.lastClaimed = s.lastClaimed ∧
      s.endStatusByte.tx = s.tx ∧ s.endStatusByte.rx = s.rx ∧ s.endStatusByte.rxRecessive =
      s.rxRecessive ∧ s.endStatusByte.table = s.table ∧ s.endStatusByte.stepState = s.stepState ∧
      s.endStatusByte.listeningEnd = s.listeningEnd ∧ s.endStatusByte.streak = s.streak ∧
      s.endStatusByte.roster = s.roster ∧ s.endStatusByte.lastSent = s.lastSent ∧
      s.endStatusByte.requester = s.requester ∧ s.endStatusByte.responder = s.responder ∧
      s.endStatusByte.orders = s.orders ∧ s.endStatusByte.stage = s.stage ∧ s.endStatusByte.flags =
      s.flags ∧ s.endStatusByte.counters = s.counters ∧ s.endStatusByte.pending = s.pending ∧
      s.endStatusByte.port.txn = s.port.txn ∧ s.endStatusByte.port.shifted = s.port.shifted ∧
      s.endStatusByte.port.response = s.port.response ∧ s.endStatusByte.port.commit = s.port.commit
      ∧ s.endStatusByte.port.carried = s.port.carried ∧ s.endStatusByte.port.fresh = s.port.fresh := by
  simp [State.endStatusByte]

@[simp] theorem State.statusGone_frame (s : State) :
    s.statusGone.inReset = s.inReset ∧ s.statusGone.csnHigh = s.csnHigh ∧ s.statusGone.addr =
      s.addr ∧ s.statusGone.rate = s.rate ∧ s.statusGone.params = s.params ∧
      s.statusGone.fingerprint = s.fingerprint ∧ s.statusGone.tick = s.tick ∧ s.statusGone.armed =
      s.armed ∧ s.statusGone.lastClaimed = s.lastClaimed ∧ s.statusGone.tx = s.tx ∧ s.statusGone.rx
      = s.rx ∧ s.statusGone.rxRecessive = s.rxRecessive ∧ s.statusGone.table = s.table ∧
      s.statusGone.stepState = s.stepState ∧ s.statusGone.listeningEnd = s.listeningEnd ∧
      s.statusGone.streak = s.streak ∧ s.statusGone.roster = s.roster ∧ s.statusGone.lastSent =
      s.lastSent ∧ s.statusGone.requester = s.requester ∧ s.statusGone.responder = s.responder ∧
      s.statusGone.orders = s.orders ∧ s.statusGone.stage = s.stage ∧ s.statusGone.flags = s.flags ∧
      s.statusGone.counters = s.counters ∧ s.statusGone.pending = s.pending ∧ s.statusGone.port.txn
      = s.port.txn ∧ s.statusGone.port.shifted = s.port.shifted ∧ s.statusGone.port.response =
      s.port.response ∧ s.statusGone.port.commit = s.port.commit ∧ s.statusGone.port.carried =
      s.port.carried ∧ s.statusGone.port.fresh = s.port.fresh := by
  unfold State.statusGone; (repeat' split) <;> simp

@[simp] theorem State.trail_frame (s : State) :
    s.trail.inReset = s.inReset ∧ s.trail.csnHigh = s.csnHigh ∧ s.trail.addr = s.addr ∧
      s.trail.rate = s.rate ∧ s.trail.params = s.params ∧ s.trail.fingerprint = s.fingerprint ∧
      s.trail.tick = s.tick ∧ s.trail.armed = s.armed ∧ s.trail.lastClaimed = s.lastClaimed ∧
      s.trail.tx = s.tx ∧ s.trail.rx = s.rx ∧ s.trail.rxRecessive = s.rxRecessive ∧ s.trail.table =
      s.table ∧ s.trail.stepState = s.stepState ∧ s.trail.listeningEnd = s.listeningEnd ∧
      s.trail.streak = s.streak ∧ s.trail.roster = s.roster ∧ s.trail.lastSent = s.lastSent ∧
      s.trail.requester = s.requester ∧ s.trail.responder = s.responder ∧ s.trail.orders = s.orders
      ∧ s.trail.stage = s.stage ∧ s.trail.flags = s.flags ∧ s.trail.counters = s.counters ∧
      s.trail.pending = s.pending ∧ s.trail.port.shifted = s.port.shifted ∧ s.trail.port.response =
      s.port.response ∧ s.trail.port.carried = s.port.carried ∧ s.trail.port.fresh = s.port.fresh := by
  simp [State.trail]

@[simp] theorem State.answer_frame (r : Result) (s : State) :
    (s.answer r).inReset = s.inReset ∧ (s.answer r).csnHigh = s.csnHigh ∧ (s.answer r).addr =
      s.addr ∧ (s.answer r).rate = s.rate ∧ (s.answer r).params = s.params ∧ (s.answer
      r).fingerprint = s.fingerprint ∧ (s.answer r).tick = s.tick ∧ (s.answer r).armed = s.armed ∧
      (s.answer r).lastClaimed = s.lastClaimed ∧ (s.answer r).tx = s.tx ∧ (s.answer r).rx = s.rx ∧
      (s.answer r).rxRecessive = s.rxRecessive ∧ (s.answer r).table = s.table ∧ (s.answer
      r).stepState = s.stepState ∧ (s.answer r).listeningEnd = s.listeningEnd ∧ (s.answer r).streak
      = s.streak ∧ (s.answer r).roster = s.roster ∧ (s.answer r).lastSent = s.lastSent ∧ (s.answer
      r).requester = s.requester ∧ (s.answer r).responder = s.responder ∧ (s.answer r).orders =
      s.orders ∧ (s.answer r).stage = s.stage ∧ (s.answer r).flags = s.flags ∧ (s.answer
      r).attention = s.attention ∧ (s.answer r).counters = s.counters ∧ (s.answer r).pending =
      s.pending := by
  simp [State.answer]

@[simp] theorem State.configure_frame (p : Params) (s : State) :
    (s.configure p).inReset = s.inReset ∧ (s.configure p).csnHigh = s.csnHigh ∧ (s.configure
      p).addr = s.addr ∧ (s.configure p).rate = s.rate ∧ (s.configure p).tick = s.tick ∧
      (s.configure p).tx = s.tx ∧ (s.configure p).rx = s.rx ∧ (s.configure p).rxRecessive =
      s.rxRecessive ∧ (s.configure p).roster = s.roster ∧ (s.configure p).lastSent = s.lastSent ∧
      (s.configure p).requester = s.requester ∧ (s.configure p).responder = s.responder ∧
      (s.configure p).orders = s.orders ∧ (s.configure p).port = s.port ∧ (s.configure p).stage =
      s.stage ∧ (s.configure p).flags = s.flags ∧ (s.configure p).attention = s.attention ∧
      (s.configure p).counters = s.counters ∧ (s.configure p).pending = s.pending := by
  simp [State.configure]

@[simp] theorem State.clearFlags_frame (m n : Half) (s : State) :
    (s.clearFlags m n).inReset = s.inReset ∧ (s.clearFlags m n).csnHigh = s.csnHigh ∧
      (s.clearFlags m n).addr = s.addr ∧ (s.clearFlags m n).rate = s.rate ∧ (s.clearFlags m
      n).params = s.params ∧ (s.clearFlags m n).fingerprint = s.fingerprint ∧ (s.clearFlags m
      n).tick = s.tick ∧ (s.clearFlags m n).armed = s.armed ∧ (s.clearFlags m n).lastClaimed =
      s.lastClaimed ∧ (s.clearFlags m n).tx = s.tx ∧ (s.clearFlags m n).rx = s.rx ∧ (s.clearFlags m
      n).rxRecessive = s.rxRecessive ∧ (s.clearFlags m n).table = s.table ∧ (s.clearFlags m
      n).stepState = s.stepState ∧ (s.clearFlags m n).listeningEnd = s.listeningEnd ∧ (s.clearFlags
      m n).streak = s.streak ∧ (s.clearFlags m n).roster = s.roster ∧ (s.clearFlags m n).lastSent =
      s.lastSent ∧ (s.clearFlags m n).requester = s.requester ∧ (s.clearFlags m n).responder =
      s.responder ∧ (s.clearFlags m n).orders = s.orders ∧ (s.clearFlags m n).port = s.port ∧
      (s.clearFlags m n).stage = s.stage ∧ (s.clearFlags m n).attention = s.attention ∧
      (s.clearFlags m n).counters = s.counters ∧ (s.clearFlags m n).pending = s.pending := by
  simp [State.clearFlags]

@[simp] theorem State.commitFlags_frame (s : State) :
    s.commitFlags.inReset = s.inReset ∧ s.commitFlags.csnHigh = s.csnHigh ∧ s.commitFlags.addr =
      s.addr ∧ s.commitFlags.rate = s.rate ∧ s.commitFlags.params = s.params ∧
      s.commitFlags.fingerprint = s.fingerprint ∧ s.commitFlags.tick = s.tick ∧ s.commitFlags.armed
      = s.armed ∧ s.commitFlags.lastClaimed = s.lastClaimed ∧ s.commitFlags.tx = s.tx ∧
      s.commitFlags.rx = s.rx ∧ s.commitFlags.rxRecessive = s.rxRecessive ∧ s.commitFlags.table =
      s.table ∧ s.commitFlags.stepState = s.stepState ∧ s.commitFlags.listeningEnd = s.listeningEnd
      ∧ s.commitFlags.streak = s.streak ∧ s.commitFlags.roster = s.roster ∧ s.commitFlags.lastSent =
      s.lastSent ∧ s.commitFlags.requester = s.requester ∧ s.commitFlags.responder = s.responder ∧
      s.commitFlags.orders = s.orders ∧ s.commitFlags.stage = s.stage ∧ s.commitFlags.counters =
      s.counters ∧ s.commitFlags.pending = s.pending ∧ s.commitFlags.port.shifted = s.port.shifted ∧
      s.commitFlags.port.response = s.port.response ∧ s.commitFlags.port.carried = s.port.carried ∧
      s.commitFlags.port.fresh = s.port.fresh := by
  unfold State.commitFlags; (repeat' split) <;> simp

@[simp] theorem State.restart_frame (s : State) :
    s.restart.inReset = s.inReset ∧ s.restart.csnHigh = s.csnHigh ∧ s.restart.addr = s.addr ∧
      s.restart.rate = s.rate ∧ s.restart.params = s.params ∧ s.restart.fingerprint = s.fingerprint
      ∧ s.restart.tick = s.tick ∧ s.restart.lastSent = s.lastSent ∧ s.restart.port = s.port ∧
      s.restart.pending = s.pending := by
  simp [State.restart]

end Sys2Proof.Machine
end

