-- ==== Sys2Proof/Laws/Ops.lean ====
section
/-! SUPPORT. What the shared operations do: counts, flags, the roster, the outbox, the searches. -/

namespace Sys2Proof.Machine

/-! ### Saturating counts, counters and flags -/

theorem satAdd16_toNat (x : Half) (n : Nat) : (satAdd16 x n).toNat = min 65535 (x.toNat + n) := by
  unfold satAdd16; rw [BitVec.toNat_ofNat]; omega

theorem satAdd8_toNat (x : Byte) (n : Nat) : (satAdd8 x n).toNat = min 255 (x.toNat + n) := by
  unfold satAdd8; rw [BitVec.toNat_ofNat]; omega

@[simp] theorem satAdd16_zero (x : Half) : satAdd16 x 0 = x := by
  apply BitVec.eq_of_toNat_eq; rw [satAdd16_toNat]; omega

theorem le_satAdd16 (x : Half) (n : Nat) : x.toNat ≤ (satAdd16 x n).toNat := by
  rw [satAdd16_toNat]; omega

theorem Counters.get_rise (c : Counter) (n : Nat) (v : Counters) (i : Fin 16) :
    (Counters.rise c n v).get i = if i = c.index then satAdd16 (v.get i) n else v.get i := by
  unfold Counters.rise Counters.read
  rw [Vector.get_eq_getElem, Vector.get_eq_getElem, Vector.get_eq_getElem, Vector.getElem_set]
  by_cases h : i = c.index
  · subst h; simp
  · have : c.index.val ≠ i.val := fun e => h (Fin.ext e.symm)
    simp [h, this]

@[simp] theorem Counters.read_rise_self (c : Counter) (n : Nat) (v : Counters) :
    Counters.read c (Counters.rise c n v) = satAdd16 (Counters.read c v) n := by
  unfold Counters.read; rw [Counters.get_rise, if_pos rfl]

theorem Counter.index_injective (c d : Counter) (h : c.index = d.index) : c = d := by
  cases c <;> cases d <;> first | rfl | exact absurd h (by decide)

@[simp] theorem Counters.read_rise_other (c d : Counter) (n : Nat) (v : Counters) (h : c ≠ d) :
    Counters.read d (Counters.rise c n v) = Counters.read d v := by
  unfold Counters.read
  rw [Counters.get_rise, if_neg (fun e => h (Counter.index_injective _ _ e).symm)]

@[simp] theorem State.counter_rise_self (c : Counter) (n : Nat) (s : State) :
    (s.rise c n).counter c = satAdd16 (s.counter c) n := Counters.read_rise_self c n s.counters

@[simp] theorem State.counter_rise_other (c d : Counter) (n : Nat) (s : State) (h : c ≠ d) :
    (s.rise c n).counter d = s.counter d := Counters.read_rise_other c d n s.counters h

@[simp] theorem State.hasFlag_setFlag_self (f : Flag) (s : State) : (s.setFlag f).hasFlag f = true := by
  unfold State.hasFlag; rw [State.setFlag_flags]; generalize s.flags = v
  cases f <;> revert v <;> decide

@[simp] theorem State.hasFlag_setFlag_other (f g : Flag) (s : State) (h : f ≠ g) :
    (s.setFlag f).hasFlag g = s.hasFlag g := by
  unfold State.hasFlag; rw [State.setFlag_flags]
  have : f.mask &&& g.mask = 0 := by cases f <;> cases g <;> first | exact absurd rfl h | rfl
  have e : (s.flags ||| f.mask) &&& g.mask = s.flags &&& g.mask := by
    have d : (s.flags ||| f.mask) &&& g.mask = (s.flags &&& g.mask) ||| (f.mask &&& g.mask) := by
      ext i hi; simp [Bool.and_or_distrib_right]
    rw [d, this]; simp
  rw [e]

/-! ### The roster -/

@[simp] theorem Roster.entry_update (f : Addr → RosterEntry → RosterEntry) (r : Roster) (a : Addr) :
    (r.update f).entry a = f a (r.entry a) := by
  simp [Roster.entry, Roster.update, Vector.get_eq_getElem]

@[simp] theorem Roster.entry_modify_self (a : Addr) (f : RosterEntry → RosterEntry) (r : Roster) :
    (r.modify a f).entry a = f (r.entry a) := by simp [Roster.modify]

@[simp] theorem Roster.entry_modify_other (a b : Addr) (f : RosterEntry → RosterEntry) (r : Roster)
    (h : b ≠ a) : (r.modify a f).entry b = r.entry b := by simp [Roster.modify, h]

theorem Roster.ext_entry (r q : Roster) (h : ∀ a : Addr, r.entry a = q.entry a) : r = q := by
  apply Vector.ext; intro i hi
  have := h (BitVec.ofFin ⟨i, hi⟩)
  simpa [Roster.entry, Vector.get_eq_getElem] using this

/-! ### The outbox -/

theorem mem_insertEntry (e x : Entry) (es : List Entry) : x ∈ insertEntry e es ↔ x = e ∨ x ∈ es := by
  induction es with
  | nil => simp [insertEntry]
  | cons y ys ih => unfold insertEntry; split <;> simp [ih]; tauto

theorem length_insertEntry (e : Entry) (es : List Entry) :
    (insertEntry e es).length = es.length + 1 := by
  induction es with
  | nil => simp [insertEntry]
  | cons y ys ih => unfold insertEntry; split <;> simp [ih]

theorem countP_insertEntry (p : Entry → Bool) (e : Entry) (es : List Entry) :
    ((insertEntry e es).filter p).length = (es.filter p).length + (if p e then 1 else 0) := by
  induction es with
  | nil => simp [insertEntry, List.filter_cons]; split <;> rfl
  | cons y ys ih =>
    unfold insertEntry
    split
    · simp only [List.filter_cons]; (repeat' split) <;> simp_all
    · simp only [List.filter_cons]; by_cases hy : p y = true <;> simp [hy, ih]; omega

theorem admitDeferred_nil (t : Transmitter) (h : t.deferred = []) : t.admitDeferred = t := by
  cases t; simp at h; subst h; rfl

theorem admitDeferred_full (t : Transmitter) (h : t.deferred ≠ [] → generalCount t.outbox = Config.maxGeneral) :
    t.admitDeferred = t := by
  cases hd : t.deferred with
  | nil => exact admitDeferred_nil t hd
  | cons b bs =>
    have := h (by simp [hd])
    unfold Transmitter.admitDeferred
    rw [hd]; unfold admitOffers
    rw [if_neg (by omega)]; cases t; simp_all

theorem sendingEntry_eq (t : Transmitter) (e : Entry) (hl : t.Law) (ho : t.onLine.isSome = true)
    (he : e ∈ t.outbox) (hs : e.sending = true) : t.sendingEntry = some e := by
  have h1 : (t.outbox.filter Entry.sending).length = 1 := by
    have := hl.2.2.2.2.2.2.2.2.2.2.2.1; simpa [ho] using this
  obtain ⟨a, ha⟩ := List.length_eq_one_iff.mp h1
  have hm : e ∈ t.outbox.filter Entry.sending := by simp [he, hs]
  unfold Transmitter.sendingEntry
  rw [← List.head?_filter, ha]; rw [ha] at hm; simp at hm; simp [hm]

theorem sending_unique (t : Transmitter) (e x : Entry) (hl : t.Law) (ho : t.onLine.isSome = true)
    (he : e ∈ t.outbox) (hs : e.sending = true) (hx : x ∈ t.outbox) (hxs : x.sending = true) :
    x = e := by
  have a := sendingEntry_eq t e hl ho he hs
  have b := sendingEntry_eq t x hl ho hx hxs
  rw [a] at b; injection b with b; exact b.symm

theorem mem_insertOffer (b x : Body) (bs : List Body) : x ∈ insertOffer b bs ↔ x = b ∨ x ∈ bs := by
  induction bs with
  | nil => simp [insertOffer]
  | cons y ys ih => unfold insertOffer; split <;> simp [ih]; tauto

/-- What an admission of deferred offers can put into the outbox: the entries it held, and offers that
were deferred, each afresh. -/
theorem mem_admitOffers (bs : List Body) (es : List Entry) (x : Entry) :
    x ∈ (admitOffers bs es).1 → x ∈ es ∨ ∃ b ∈ bs, x = Entry.fresh b := by
  induction bs generalizing es with
  | nil => intro h; exact .inl h
  | cons b bs ih =>
    unfold admitOffers; split
    · intro h
      rcases ih _ h with h | ⟨c, hc, e⟩
      · rcases (mem_insertEntry _ _ _).mp h with e | h
        · exact .inr ⟨b, by simp, e⟩
        · exact .inl h
      · exact .inr ⟨c, by simp [hc], e⟩
    · exact .inl

/-- An admission of deferred offers keeps every entry of the outbox. -/
theorem mem_admitOffers_of_mem (bs : List Body) (es : List Entry) (x : Entry) (h : x ∈ es) :
    x ∈ (admitOffers bs es).1 := by
  induction bs generalizing es with
  | nil => exact h
  | cons b bs ih =>
    unfold admitOffers; split
    · exact ih _ ((mem_insertEntry _ _ _).mpr (.inr h))
    · exact h

/-- An offer of a kind that stands neither admitted nor deferred is made: the body stands offered. -/
theorem Transmitter.offer_offers (b : Body) (t : Transmitter) (h : t.queued b.kind = false) :
    (t.offer b).Offers b := by
  unfold Transmitter.offer Transmitter.admitEntry
  rw [if_neg (by simp [h])]
  split
  · exact .inl ((mem_insertEntry _ _ _).mpr (.inl rfl))
  · exact .inr ((mem_insertOffer _ _ _).mpr (.inl rfl))

@[simp] theorem Transmitter.mem_waiting (e : Entry) (t : Transmitter) :
    e ∈ t.waiting ↔ e ∈ t.outbox ∧ e.sending = false := by simp [Transmitter.waiting]

/-- With nothing deferred, the entry in transmission leaves and the others stay in their places. -/
theorem Transmitter.dropSending_outbox (t : Transmitter) (h : t.deferred = []) :
    t.dropSending.outbox = t.waiting := by
  simp [Transmitter.dropSending, Transmitter.admitDeferred, Transmitter.waiting, admitOffers, h]

/-! ### The line and the board port -/

/-- After 12 recessive bit times a Receiver that waits for an idle line is READY, both counts at 12 at
least, and nothing else has changed. -/
theorem State.receiverIdle_lineRecessive (s : State) (h : s.rx = .waitIdle) :
    (s.lineRecessive Config.idleBits).receiverIdle =
      { s with rx := .ready, rxRecessive := max s.rxRecessive 12,
               tx := { s.tx with recessive := max s.tx.recessive 12 } } := by
  simp [State.receiverIdle, State.lineRecessive, Config.idleBits, h]

/-- The argument bytes a well-formed TRANSACTION_OPEN reckons with are those the port looks up. -/
theorem argumentBytes_eq_argumentCount : argumentBytes = argumentCount := rfl

/-- A command that can be taken makes its effect. -/
theorem State.taken_of_takesCommand (c : Instr) (f : State → State) (s : State)
    (h : s.takesCommand c = true) : s.taken c f = f s := by simp [State.taken, h]

/-- In COMMAND with no byte in, every board command can be taken. -/
theorem State.takesCommand_of_command (c : Instr) (s : State) (h : s.inReset = false)
    (ht : s.port.txn = .command) (hs : s.port.shifted = []) (hc : (Decode.commandBytes c).isSome = true) :
    s.takesCommand c = true := by
  obtain ⟨bytes, hb⟩ := Option.isSome_iff_exists.mp hc
  simp [State.takesCommand, h, ht, hs, hb]

/-- A command's bytes are its code and as many argument bytes as the port looks up for the code. -/
theorem commandBytes_length (c : Instr) (code : Byte) (args : List Byte)
    (hw : c.wf = true) (h : Decode.commandBytes c = some (code :: args)) :
    args.length = argumentBytes code := by
  cases c <;> simp only [Decode.commandBytes, Option.some.injEq, List.cons.injEq, List.cons_append,
    reduceCtorEq] at h <;> obtain ⟨rfl, rfl⟩ := h <;> try rfl
  simp [Instr.wf, commandCodes] at hw
  simp [argumentBytes, hw]

/-! ### One check, two places -/

/-- The codes a well-formed UNKNOWN_COMMAND may not carry are the codes the port knows. -/
theorem boardCodes_eq_commandCodes : boardCodes = commandCodes := rfl

/-- The length check of a well-formed STATE_ACCEPTED is the Bus Receiver's. -/
theorem lengthOk_state_eq (n : Nat) : Kind.lengthOk .state n = stateLengthOk n := rfl

/-! ### Searches -/

theorem takeFirst_none {α : Type} (p : α → Bool) (l : List α) :
    takeFirst p l = none ↔ ∀ x ∈ l, p x = false := by
  induction l with
  | nil => simp [takeFirst]
  | cons y ys ih => unfold takeFirst; split <;> simp_all

theorem takeFirst_append {α : Type} (p : α → Bool) (a : List α) (r : α) (b : List α)
    (ha : ∀ x ∈ a, p x = false) (hr : p r = true) :
    takeFirst p (a ++ r :: b) = some (r, a ++ b) := by
  induction a with
  | nil => simp [takeFirst, hr]
  | cons y ys ih =>
    have := ih (fun x hx => ha x (by simp [hx]))
    simp [takeFirst, ha y (by simp), this]

theorem updateFirst_none {α : Type} (p : α → Bool) (f : α → α) (l : List α) :
    updateFirst p f l = none ↔ ∀ x ∈ l, p x = false := by
  induction l with
  | nil => simp [updateFirst]
  | cons y ys ih => unfold updateFirst; split <;> simp_all

theorem updateFirst_append {α : Type} (p : α → Bool) (f : α → α) (a : List α) (r : α) (b : List α)
    (ha : ∀ x ∈ a, p x = false) (hr : p r = true) :
    updateFirst p f (a ++ r :: b) = some (a ++ f r :: b) := by
  induction a with
  | nil => simp [updateFirst, hr]
  | cons y ys ih =>
    have := ih (fun x hx => ha x (by simp [hx]))
    simp [updateFirst, ha y (by simp), this]

end Sys2Proof.Machine
end

