-- ==== Sys2Proof/Laws/Install.lean ====
section
/-! SUPPORT. What an install does: the held frames applied, the dues of the open records, the CLOSE entries
(R118 to R121); the walk of the hold queue (R118); and what an acceptance does that is recorded only. -/

namespace Sys2Proof.Machine

/-! ### Held frames -/

/-- The parts of two stations that the application of held frames reads and writes are equal. -/
structure State.SameCore (s m : State) : Prop where
  params : s.params = m.params
  addr : s.addr = m.addr
  armed : s.armed = m.armed
  stepState : s.stepState = m.stepState
  orders : s.orders = m.orders
  table : s.table = m.table
  counters : s.counters = m.counters
  outbox : s.tx.outbox = m.tx.outbox
  deferred : s.tx.deferred = m.tx.deferred

/-- A withdrawal reads the outbox and the deferred offers alone. -/
theorem Transmitter.withdraw_same (p : Body → Bool) (t u : Transmitter) (h1 : t.outbox = u.outbox)
    (h2 : t.deferred = u.deferred) :
    (t.withdraw p).outbox = (u.withdraw p).outbox ∧ (t.withdraw p).deferred = (u.withdraw p).deferred := by
  simp [Transmitter.withdraw, Transmitter.admitDeferred, h1, h2]

/-- A withdrawal keeps two stations alike. -/
theorem State.SameCore.withdraw {s m : State} (p : Body → Bool) (h : s.SameCore m) :
    (s.withdraw p).SameCore (m.withdraw p) := by
  obtain ⟨a,b,c,d,e,f,g,i,j⟩ := h
  have := Transmitter.withdraw_same p s.tx m.tx i j
  constructor <;> simp_all [State.withdraw, Transmitter.withdrawnClaims]

/-- An offer to the Order Queue keeps two stations alike. -/
theorem State.SameCore.offerOrder {s m : State} (o : Order) (h : s.SameCore m) :
    (s.offerOrder o).SameCore (m.offerOrder o) := by
  obtain ⟨a,b,c,d,e,f,g,i,j⟩ := h
  have ha : s.orderAnswer o.number = m.orderAnswer o.number := by simp [State.orderAnswer, c, e]
  unfold State.offerOrder
  rw [ha]
  cases m.orderAnswer o.number <;> constructor <;>
    simp_all [State.rise, State.setFlag, State.setFlags]

/-- The same table put into two stations that are alike keeps them alike. -/
theorem State.SameCore.withTable {s m : State} (t : Table) (h : s.SameCore m) :
    ({ s with table := t } : State).SameCore { m with table := t } := by
  obtain ⟨a, b, c, d, e, _, g, i, j⟩ := h
  exact ⟨a, b, c, d, e, rfl, g, i, j⟩

/-- A counter's rises keep two stations alike. -/
theorem State.SameCore.rise {s m : State} (c : Counter) (n : Nat) (h : s.SameCore m) :
    (s.rise c n).SameCore (m.rise c n) := by
  obtain ⟨a, b, c, d, e, f, g, i, j⟩ := h
  exact ⟨a, b, c, d, e, f, by simp [State.rise, g], i, j⟩

/-- A CLAIM applied outside IN_STEP keeps two stations alike (R120). -/
theorem State.SameCore.applyClaim {s m : State} (x : Addr) (stamp : Tick) (epoch : Byte)
    (h : s.SameCore m) (ho : s.stepState ≠ .inStep) :
    (s.applyClaim x stamp epoch).SameCore (m.applyClaim x stamp epoch) := by
  have hm : m.stepState ≠ .inStep := h.stepState ▸ ho
  obtain ⟨a, b, c, d, e, f, g, i, j⟩ := h
  constructor <;> simp only [State.applyClaim, State.openingDue, State.scheduleCloses] <;>
    (repeat' split) <;> simp_all

/-- A CLOSE keeps two stations alike (R120). -/
theorem State.SameCore.applyClose {s m : State} (x : Addr) (n : Half) (h : s.SameCore m) :
    (s.applyClose x n).SameCore (m.applyClose x n) := by
  have hk : ∀ r, s.closeNote r = m.closeNote r := fun r => by
    simp [State.closeNote, State.orderAnswer, h.params, h.armed, h.orders]
  unfold State.applyClose
  rw [← h.table]
  cases takeFirst (fun r => r.number == n) s.table.slots with
  | none => exact (h.withTable _).withdraw _
  | some q =>
    obtain ⟨r, rest⟩ := q
    have hq : m.params.q.toNat = s.params.q.toNat := by rw [h.params]
    simp only [← hk, hq]
    split
    · exact ((h.withTable _).offerOrder _).withdraw _
    · exact (h.withTable _).withdraw _

/-- An EPOCH's table effect keeps two stations alike (R120). -/
theorem State.SameCore.applyEpoch {s m : State} (x : Addr) (h : s.SameCore m) :
    (s.applyEpoch x).SameCore (m.applyEpoch x) := by
  have ht := h.withTable (s.table.epochEnds x)
  have ha : State.applies { s with table := s.table.epochEnds x }
      = State.applies { m with table := s.table.epochEnds x } := by simp [State.applies, h.stepState]
  unfold State.applyEpoch
  simp only [← h.table, ha]
  split
  · exact ht.withdraw _
  · exact ht

/-- An ordered frame applied outside IN_STEP, as at an install, keeps two stations alike (R21, R120). -/
theorem State.SameCore.applyFrame {s m : State} (x : Addr) (b : Sequenced) (h : s.SameCore m)
    (ho : s.stepState ≠ .inStep) : (s.applyFrame x b).SameCore (m.applyFrame x b) := by
  have h1 := (h.rise .framesApplied 1).withTable (s.table.advance (digestedBytes x b))
  unfold State.applyFrame
  rw [← h.table]
  cases b with
  | claim stamp epoch => exact h1.applyClaim x stamp epoch ho
  | close n => exact h1.applyClose x n
  | epoch => exact h1.applyEpoch x

/-- The held frames keep two stations alike (R120). -/
theorem State.SameCore.applyHeld {s m : State} (fs : List Held) (h : s.SameCore m) (ho : s.stepState ≠ .inStep) :
    (s.applyHeld fs).SameCore (m.applyHeld fs) := by
  induction fs generalizing s m with
  | nil => exact h
  | cons f fs ih => 
    simp only [State.applyHeld]
    exact ih (h.applyFrame _ _ ho) (by simpa using ho)

/-- Of the counters that no order and no withdrawal moves, an applied frame moves FRAMES_APPLIED by 1 and
no other (R21). -/
theorem State.applyFrame_counters (a : Addr) (b : Sequenced) (s : State) :
    (s.applyFrame a b).counter .framesApplied = satAdd16 (s.counter .framesApplied) 1
      ∧ (s.applyFrame a b).counter .resyncsDone = s.counter .resyncsDone := by
  cases b <;> simp only [State.applyFrame, State.applyClaim, State.applyClose, State.applyEpoch,
    State.scheduleCloses, State.offerOrder] <;> (repeat' split) <;>
    simp [State.counter, State.withdraw, State.rise, State.setFlag, State.setFlags]

/-- Rises of a saturating counter add up. -/
theorem satAdd16_satAdd16 (x : Half) (m n : Nat) : satAdd16 (satAdd16 x m) n = satAdd16 x (m + n) := by
  apply BitVec.eq_of_toNat_eq; simp only [satAdd16_toNat]; omega

/-- Each held frame is counted in FRAMES_APPLIED, and none in RESYNCS_DONE (R120). -/
theorem State.applyHeld_counters (fs : List Held) (s : State) :
    (s.applyHeld fs).counter .framesApplied = satAdd16 (s.counter .framesApplied) fs.length
      ∧ (s.applyHeld fs).counter .resyncsDone = s.counter .resyncsDone := by
  induction fs generalizing s with
  | nil => simp [State.applyHeld]
  | cons f fs ih =>
    simp only [State.applyHeld, ih, State.applyFrame_counters, satAdd16_satAdd16, List.length_cons,
      Nat.add_comm, and_self]

/-! ### Closes at the end of an install -/

/-- The outbox holds no ordered frame, admitted or deferred, as outside IN_STEP (R55). -/
def Transmitter.Side (t : Transmitter) : Prop :=
  (∀ e ∈ t.outbox, e.body.kind.ordered = false) ∧ ∀ b ∈ t.deferred, b.kind.ordered = false

/-- What stays deferred was deferred. -/
theorem admitOffers_deferred_sub (bs : List Body) (es : List Entry) :
    ∀ b ∈ (admitOffers bs es).2, b ∈ bs := by
  induction bs generalizing es with
  | nil => simp [admitOffers]
  | cons c bs ih =>
    unfold admitOffers; split
    · intro b hb; exact List.mem_cons_of_mem _ (ih _ b hb)
    · intro b hb; exact hb

/-- A withdrawal brings no ordered frame into the outbox. -/
theorem Transmitter.Side.withdraw {t : Transmitter} (p : Body → Bool) (h : t.Side) : (t.withdraw p).Side := by
  obtain ⟨h1, h2⟩ := h
  constructor
  · intro e he
    simp only [Transmitter.withdraw, Transmitter.admitDeferred] at he
    rcases mem_admitOffers _ _ _ he with he | ⟨b, hb, rfl⟩
    · simp only [List.mem_map, List.mem_filter] at he
      obtain ⟨x, ⟨hx, _⟩, rfl⟩ := he
      split <;> exact h1 x hx
    · simp only [List.mem_filter] at hb
      exact h2 b hb.1
  · intro b hb
    simp only [Transmitter.withdraw, Transmitter.admitDeferred] at hb
    have := admitOffers_deferred_sub _ _ b hb
    simp only [List.mem_filter] at this
    exact h2 b this.1

/-- A change of one element keeps the length. -/
theorem length_updateFirst {α : Type} (p : α → Bool) (f : α → α) (l m : List α)
    (h : updateFirst p f l = some m) : m.length = l.length := by
  induction l generalizing m with
  | nil => simp [updateFirst] at h
  | cons y ys ih =>
    unfold updateFirst at h; split at h
    · simp at h; simp [← h]
    · simp only [Option.map_eq_some_iff] at h
      obtain ⟨q, hq, rfl⟩ := h
      simp [ih q hq]

/-- Taking one element out shortens the list by one. -/
theorem length_takeFirst {α : Type} (p : α → Bool) (l m : List α) (r : α)
    (h : takeFirst p l = some (r, m)) : m.length + 1 = l.length := by
  induction l generalizing m with
  | nil => simp [takeFirst] at h
  | cons y ys ih =>
    unfold takeFirst at h; split at h
    · simp at h; simp [← h]
    · simp only [Option.map_eq_some_iff] at h
      obtain ⟨⟨a, q⟩, hq, e⟩ := h
      simp at e; obtain ⟨rfl, rfl⟩ := e
      simp [ih q hq]

/-- Outside IN_STEP an ordered frame brings no ordered frame into the outbox and at most four records into
the slots (R17, R27). -/
theorem State.applyFrame_side (a : Addr) (b : Sequenced) (s : State) (ho : s.stepState ≠ .inStep)
    (h : s.tx.Side) (hl : s.table.slots.length ≤ 4) :
    (s.applyFrame a b).tx.Side ∧ (s.applyFrame a b).table.slots.length ≤ 4 := by
  cases b with
  | claim st ep =>
    simp only [State.applyFrame, State.applyClaim]
    constructor
    · split <;> simp [State.scheduleCloses, ho, h, State.rise]
    · have : ∀ t : Table, t.slots.length ≤ 4 → ∀ due,
          (t.claim a st due (t.claimEffect s.params.w.toNat a st ep)).slots.length ≤ 4 := by
        intro t ht due
        unfold Table.claimEffect
        split
        · exact ht
        · split
          · rename_i sl hsl
            simp only [Table.claim]; rw [length_updateFirst _ _ _ _ hsl]; exact ht
          · split
            · exact ht
            · split
              · rename_i h4; simp [Table.claim, Config.maxOpen] at *; omega
              · exact ht
      split <;> simp [State.scheduleCloses] <;> exact this _ (by simpa [Table.advance] using hl) _
  | close n =>
    simp only [State.applyFrame, State.applyClose]
    split
    · exact ⟨by simpa [State.withdraw] using Transmitter.Side.withdraw _ h,
        by simpa [State.withdraw, Table.advance] using hl⟩
    · rename_i r rest hr
      have := length_takeFirst _ _ _ _ hr
      simp only [Table.advance] at this
      constructor
      · split <;> simp [State.withdraw] <;> exact Transmitter.Side.withdraw _ (by simpa using h)
      · split <;> simp [State.withdraw] <;> omega
  | epoch =>
    simp only [State.applyFrame, State.applyEpoch]
    split
    · exact ⟨by simpa [State.withdraw] using Transmitter.Side.withdraw _ h,
        by simp [State.withdraw, Table.epochEnds]⟩
    · exact ⟨by simpa using h, by simp [Table.epochEnds]⟩

/-- The same of the held frames. -/
theorem State.applyHeld_side (fs : List Held) (s : State) (ho : s.stepState ≠ .inStep)
    (h : s.tx.Side) (hl : s.table.slots.length ≤ 4) :
    (s.applyHeld fs).tx.Side ∧ (s.applyHeld fs).table.slots.length ≤ 4 := by
  induction fs generalizing s with
  | nil => exact ⟨h, hl⟩
  | cons f fs ih =>
    obtain ⟨h1, h2⟩ := State.applyFrame_side f.sender f.body s ho h hl
    exact ih _ (by simpa using ho) h1 h2

/-- The Close Scheduler takes no entry out. -/
theorem scheduleCloses_mem (now : Tick) (rs : List EventRecord) (t : Transmitter) (e : Entry)
    (h : e ∈ t.outbox) :
    e ∈ (Transmitter.scheduleCloses now rs t).outbox := by
  induction rs generalizing t with
  | nil => exact h
  | cons r rs ih =>
    unfold Transmitter.scheduleCloses
    apply ih
    split
    · exact (mem_insertEntry _ _ _).mpr (.inr h)
    · exact h

/-- Every reached due has its CLOSE queued while four places hold them all (R32, R68). -/
theorem scheduleCloses_queues (now : Tick) (rs : List EventRecord) (t : Transmitter)
    (hc : t.closeCount + rs.length ≤ 4) :
    ∀ r ∈ rs, reachedOpt now r.due = true →
      (Transmitter.scheduleCloses now rs t).outbox.any (fun e => e.body == .close r.number) = true := by
  induction rs generalizing t with
  | nil => simp
  | cons r rs ih =>
    intro q hq hr
    simp only [List.length_cons] at hc
    unfold Transmitter.scheduleCloses
    rcases List.mem_cons.mp hq with rfl | hq
    · rw [List.any_eq_true]
      split
      · exact ⟨Entry.fresh (.close q.number),
          scheduleCloses_mem _ _ _ _ ((mem_insertEntry _ _ _).mpr (.inl rfl)), by simp [Entry.fresh]⟩
      · rename_i hn
        have : t.outbox.any (fun e => e.body == .close q.number) = true := by
          by_contra hx
          apply hn
          have h4 : t.closeCount < Config.maxClose := by unfold Config.maxClose; omega
          rw [Bool.not_eq_true] at hx
          simp [hr, hx, h4]
        obtain ⟨e, he, hb⟩ := List.any_eq_true.mp this
        exact ⟨e, scheduleCloses_mem _ _ _ _ he, hb⟩
    · apply ih _ _ q hq hr
      split
      · simp only [Transmitter.closeCount, Transmitter.admitEntry]
        rw [countP_insertEntry]
        have : t.closeCount = (List.filter (fun e => Body.isKind Kind.close e.body) t.outbox).length := rfl
        split <;> omega
      · omega

/-- What an install without a gap does (R119 to R121). -/
theorem State.install_installedAs (m s : State) (hd : SnapHeader) (records : List EventRecord)
    (marked : List Held)
    (hc : m.SameCore s) (ho : m.stepState = .outOfStep) (hs : m.streak = s.streak)
    (hw : walk hd.position m.requester.hold = some marked) :
    s.InstalledAs hd records marked m.tick (m.install hd records) := by
  have hx := (hc.withTable (installedTable hd records)).applyHeld marked (by simp [ho])
  have hside := fun (hl : s.OutboxLaw) (h4 : hd.openCount ≤ Config.maxOpen) =>
    State.applyHeld_side marked { m with table := installedTable hd records } (by simp [ho])
      ⟨fun e he => hl.2.2.1 (by rw [← hc.stepState, ho]; simp) e (hc.outbox ▸ he), fun b hb => by
        rcases (hl.1.2.2.2.2.2.2.2.2.2.2.2.2.1 b (hc.deferred ▸ hb)).1 with h | h | h <;>
          simp [h, Kind.ordered]⟩
      (by simp [installedTable, Config.maxOpen] at *; omega)
  have e : m.install hd records = State.computeDues
      { (State.applyHeld marked { m with table := installedTable hd records }).rise .resyncsDone 1 with
          stepState := .inStep, requester := Requester.idle } := by
    unfold State.install; rw [hw]
  obtain ⟨hfa, hrd⟩ := State.applyHeld_counters marked { s with table := installedTable hd records }
  have hy : ∀ y, y = State.applyHeld marked { m with table := installedTable hd records } →
      y.streak = s.streak ∧ y.addr = s.addr ∧ y.params = s.params ∧ y.tick = m.tick := by
    rintro y rfl; simp [hs, hc.addr, hc.params]
  obtain ⟨hfr1, hfr2, hfr3, hfr4⟩ := hy _ rfl
  clear hy
  rw [e]
  generalize hX : State.applyHeld marked { s with table := installedTable hd records } = X at *
  generalize State.applyHeld marked { m with table := installedTable hd records } = Y at *
  refine ⟨rfl, rfl, hfr1, ?_, ?_, ?_⟩
  · simp only [State.computeDues, State.scheduleCloses, State.counter, State.rise] at *
    rw [hx.counters, Counters.read_rise_self, hrd]
  · simp only [State.computeDues, State.scheduleCloses, State.counter, State.rise] at *
    rw [Counters.read_rise_other _ _ _ _ (by decide), hx.counters, hfa]
  · intro x hxx
    have : x = X := by rw [hxx, ← hX]; rfl
    subst this
    refine ⟨?_, ?_, ?_, ?_⟩
    · simp only [State.computeDues, State.scheduleCloses, State.rise, hfr2, hfr3, hx.table]
    · exact hx.orders
    · intro k hk
      simp only [State.computeDues, State.scheduleCloses, State.counter, State.rise]
      rw [Counters.read_rise_other _ _ _ _ (Ne.symm hk), hx.counters]
    · intro hl h4 r hr hrr
      obtain ⟨hsd, h4'⟩ := hside hl h4
      simp only [State.computeDues, State.scheduleCloses, State.rise, hfr2, hfr3, hfr4, if_true] at hr ⊢
      apply scheduleCloses_queues _ _ _ _ r hr hrr
      have : Y.tx.closeCount = 0 := by
        simp only [Transmitter.closeCount, List.length_eq_zero_iff, List.filter_eq_nil_iff]
        intro e he hk
        have := hsd.1 e he
        simp [Body.isKind] at hk
        rw [hk] at this; simp [Kind.ordered] at this
      rw [this]; simpa using h4'

/-! ### The walk -/

/-- A carried count that is before the running count is neither equal to it nor after it. -/
theorem countBefore_asymm (c d : Half) (h : countBefore c d = true) : c ≠ d ∧ countBefore d c = false := by
  unfold countBefore at *
  simp only [Bool.and_eq_true, decide_eq_true_eq, Bool.and_eq_false_iff, decide_eq_false_iff_not] at *
  unfold Config.countHalfRange at *
  constructor
  · rintro rfl; simp at h
  · have := c.isLt
    have := d.isLt
    simp only [BitVec.toNat_sub, Nat.reducePow] at *
    omega

/-- The walk by the three rows of R118. -/
theorem walk_rows (running : Half) (f : Held) (rest : List Held) :
    (countBefore f.count running = true → walk running (f :: rest) = walk running rest)
      ∧ (f.count = running →
          walk running (f :: rest) = (walk (running + 1) rest).map (fun marked => f :: marked))
      ∧ (countBefore running f.count = true → walk running (f :: rest) = none) := by
  refine ⟨fun h => ?_, fun h => ?_, fun h => ?_⟩
  · rw [walk, if_neg (countBefore_asymm _ _ h).1, if_pos h]
  · rw [walk, if_pos h]
  · obtain ⟨h1, h2⟩ := countBefore_asymm _ _ h
    rw [walk, if_neg (Ne.symm h1), if_neg (by simp [h2]), if_pos h]

/-- A hold queue with a gap stops the walk (R118). -/
theorem GapAt.walk_none {position : Half} {hold : List Held} (h : GapAt position hold) :
    walk position hold = none := by
  obtain ⟨old, new, f, rest, rfl, ho, hn, hf⟩ := h
  induction old with
  | cons x xs ih =>
    rw [List.cons_append, List.cons_append, (walk_rows _ _ _).1 (ho x (by simp))]
    exact ih (fun y hy => ho y (by simp [hy]))
  | nil =>
    simp only [List.nil_append]
    induction new generalizing position with
    | nil => exact (walk_rows _ _ _).2.2 (by simpa using hf)
    | cons x xs ih =>
      rw [List.cons_append, (walk_rows _ _ _).2.1 (by simpa using hn 0 x rfl)]
      rw [ih]
      · rfl
      rotate_left 2
      · simp
      · intro i y hy
        rw [hn (i + 1) y (by simpa using hy), BitVec.add_assoc]
        congr 1
        rw [Nat.add_comm, BitVec.ofNat_add]; rfl
      · rw [List.length_cons, Nat.add_comm, BitVec.ofNat_add] at hf
        rw [BitVec.add_assoc]; exact hf

/-! ### Acceptance of a frame that is recorded only -/

/-- What an acceptance does that neither ends a listening period nor is voted on: the line, and the sender's
entry (R66, R98, R99). -/
theorem State.accept_records (h : Header) (fp : Half) (s : State) (ho : s.OnlyRecords h fp)
    (hn : h.sender ≠ s.addr) :
    s.accept h (some fp) false = { s with
      rx := .waitIdle, rxRecessive := 0, tx := { s.tx with recessive := 0 },
      roster := s.roster.modify h.sender (fun e =>
        { presence := if e.presence = .absent then .present else e.presence,
          inStep := h.inStep, armed := h.armed, heard := s.tick, disagreements := e.disagreements,
          mismatched := if s.stepState = .unconfigured then e.mismatched
                        else decide (fp ≠ s.fingerprint) }) } := by
  have ha : s.arrive h (some fp) false = { s with
      rx := .waitIdle, rxRecessive := 0, tx := { s.tx with recessive := 0 },
      roster := s.roster.modify h.sender (fun e =>
        { presence := if e.presence = .absent then .present else e.presence,
          inStep := h.inStep, armed := h.armed, heard := s.tick, disagreements := e.disagreements,
          mismatched := if s.stepState = .unconfigured then e.mismatched
                        else decide (fp ≠ s.fingerprint) }) } := by
    simp [State.arrive, State.record, State.receiverDone, State.lineBusy, State.setFlagIf, State.setFlags,
      hn, RosterEntry.recorded, State.markAfter, State.newlySet]
    congr 1
    funext e
    by_cases hc : s.stepState = .unconfigured
    · simp [State.configured, hc]
    · simp [State.configured, hc]; by_cases hf : fp = s.fingerprint <;> simp [hf]
  unfold State.accept
  rw [ha]
  unfold State.monitor State.vote State.votes
  rcases ho with h0 | ⟨h1, h2⟩
  · simp [h0]
  · simp only [h1, if_false]
    rw [if_neg]
    rcases h2 with h2 | h2
    · have : (s.stepState == .inStep || s.stepState == .mute) = false := h2
      simp [State.applies] at this ⊢
      intro hx; rcases hx with hx | hx <;> simp_all
    · simp [State.applies]
      intro hx _
      rcases hx with hx | hx <;> simp [hx, h2]

end Sys2Proof.Machine
end

