-- ==== Sys2Proof/Laws/Closes.lean ====
section
/-! SUPPORT. The CLOSE entries of a lawful station, and that every due already reached when it is computed has
its CLOSE queued at once: where a claim opens a record and on entry into IN_STEP (R26, R31, R32, R68). -/

namespace Sys2Proof.Machine

/-- An entry put in its place is one entry more. -/
theorem insertEntry_perm (e : Entry) (es : List Entry) : (insertEntry e es).Perm (e :: es) := by
  induction es with
  | nil => exact List.Perm.refl _
  | cons x xs ih =>
    unfold insertEntry; split
    · exact List.Perm.refl _
    · exact (ih.cons x).trans (List.Perm.swap _ _ _)

/-- The CLOSE entries stand for different records of a list: each names one of them, none twice (R68). -/
def Transmitter.ClosesName (rs : List EventRecord) (t : Transmitter) : Prop :=
  (t.outbox.filterMap (fun e => e.body.closeNumber)).Nodup
    ∧ ∀ e ∈ t.outbox, e.body.closeNumber.all (fun n => rs.any (fun r => r.number == n)) = true

/-- The CLOSE entries are as many as the numbers they name. -/
theorem Transmitter.closeCount_eq (t : Transmitter) :
    t.closeCount = (t.outbox.filterMap (fun e => e.body.closeNumber)).length := by
  unfold Transmitter.closeCount
  induction t.outbox with
  | nil => rfl
  | cons e es ih =>
    rw [List.filter_cons, List.filterMap_cons]
    have hk : e.body.isKind .close = e.body.closeNumber.isSome := by cases e.body <;> rfl
    rw [hk]
    cases e.body.closeNumber <;> simp [ih]

/-- While at most four records stand and no CLOSE names the record `r` of them, a CLOSE place is free. -/
theorem Transmitter.ClosesName.room {rs : List EventRecord} {t : Transmitter} (h : t.ClosesName rs)
    (hl : rs.length ≤ 4) (r : EventRecord) (hr : r ∈ rs)
    (hn : t.outbox.any (fun e => e.body == .close r.number) = false) : t.closeCount < Config.maxClose := by
  rw [Transmitter.closeCount_eq]
  obtain ⟨hd, hm⟩ := h
  have hsub : (t.outbox.filterMap (fun e => e.body.closeNumber)) ⊆
      ((rs.map EventRecord.number).erase r.number) := by
    intro n hnm
    obtain ⟨e, he, hen⟩ := List.mem_filterMap.mp hnm
    have hne : n ≠ r.number := by
      rintro rfl
      have : e.body = .close r.number := by
        cases hb : e.body <;> simp [hb, Body.closeNumber] at hen; rw [hen]
      rw [List.any_eq_false] at hn
      exact hn e he (by simp [this])
    have := hm e he
    rw [hen] at this
    simp at this
    obtain ⟨q, hq, rfl⟩ := this
    exact (List.mem_erase_of_ne hne).mpr (List.mem_map_of_mem hq)
  have h1 := (List.subperm_of_subset hd hsub).length_le
  rw [List.length_erase_of_mem (List.mem_map_of_mem hr), List.length_map] at h1
  have : 0 < rs.length := List.length_pos_of_mem hr
  unfold Config.maxClose; omega

/-- Admitting the CLOSE of a record of the list, none having stood, keeps the law of the names. -/
theorem Transmitter.ClosesName.admitted {rs : List EventRecord} {t : Transmitter} (h : t.ClosesName rs)
    (r : EventRecord) (hr : r ∈ rs)
    (hn : t.outbox.any (fun e => e.body == .close r.number) = false) :
    (t.admitEntry (.close r.number)).ClosesName rs := by
  obtain ⟨hd, hm⟩ := h
  constructor
  · simp only [Transmitter.admitEntry]
    rw [((insertEntry_perm _ _).filterMap _).nodup_iff]
    simp only [List.filterMap_cons, Entry.fresh, Body.closeNumber, List.nodup_cons]
    refine ⟨fun hmem => ?_, hd⟩
    obtain ⟨e, he, hen⟩ := List.mem_filterMap.mp hmem
    rw [List.any_eq_false] at hn
    refine hn e he ?_
    cases hb : e.body <;> rw [hb] at hen <;> cases hen; simp
  · intro e he
    simp only [Transmitter.admitEntry, mem_insertEntry] at he
    rcases he with rfl | he
    · simp [Entry.fresh, Body.closeNumber]; exact ⟨r, hr, rfl⟩
    · exact hm e he

/-- The Close Scheduler at a station with at most four records and lawful CLOSE entries: every reached due
has its CLOSE, no entry leaves, and what comes is the CLOSE of a reached due (R32). -/
theorem scheduleCloses_reached (now : Tick) (all rs : List EventRecord) (t : Transmitter)
    (hl : all.length ≤ 4) (hs : ∀ r ∈ rs, r ∈ all) (h : t.ClosesName all) :
    (∀ r ∈ rs, reachedOpt now r.due = true →
        (Transmitter.scheduleCloses now rs t).outbox.any (fun e => e.body == .close r.number) = true)
      ∧ (∀ x ∈ t.outbox, x ∈ (Transmitter.scheduleCloses now rs t).outbox)
      ∧ ∀ x ∈ (Transmitter.scheduleCloses now rs t).outbox, x ∈ t.outbox
          ∨ ∃ r ∈ rs, reachedOpt now r.due = true ∧ x = Entry.fresh (.close r.number) := by
  refine ⟨?_, fun x hx => scheduleCloses_mem _ _ _ _ hx, ?_⟩
  · induction rs generalizing t with
    | nil => simp
    | cons r rs ih =>
      unfold Transmitter.scheduleCloses
      by_cases hc : reachedOpt now r.due = true ∧ t.outbox.any (fun e => e.body == .close r.number) = false
      · have hroom := h.room hl r (hs r (by simp)) hc.2
        have he := h.admitted r (hs r (by simp)) hc.2
        rw [if_pos (by simp [hc.1, hc.2, hroom])]
        intro q hq hr
        rcases List.mem_cons.mp hq with rfl | hq
        · exact List.any_eq_true.mpr ⟨Entry.fresh (.close q.number),
            scheduleCloses_mem _ _ _ _ ((mem_insertEntry _ _ _).mpr (.inl rfl)), by simp [Entry.fresh]⟩
        · exact ih _ (fun r hr => hs r (by simp [hr])) he q hq hr
      · rw [if_neg (by
          intro hx; simp only [Bool.and_eq_true, Bool.not_eq_true'] at hx; exact hc ⟨hx.1.1, hx.1.2⟩)]
        intro q hq hr
        rcases List.mem_cons.mp hq with rfl | hq
        · have : t.outbox.any (fun e => e.body == .close q.number) = true := by
            by_contra hx; exact hc ⟨hr, by simpa using hx⟩
          obtain ⟨e, he, hb⟩ := List.any_eq_true.mp this
          exact List.any_eq_true.mpr ⟨e, scheduleCloses_mem _ _ _ _ he, hb⟩
        · exact ih _ (fun r hr => hs r (by simp [hr])) h q hq hr
  · clear h hs
    induction rs generalizing t with
    | nil => intro x hx; exact .inl hx
    | cons r rs ih =>
      unfold Transmitter.scheduleCloses
      intro x hx
      rcases ih _ x hx with hx | ⟨q, hq, hr⟩
      · split at hx
        · rename_i hc
          simp only [Bool.and_eq_true] at hc
          rcases (mem_insertEntry _ _ _).mp hx with rfl | hx
          · exact .inr ⟨r, by simp, hc.1.1, rfl⟩
          · exact .inl hx
        · exact .inl hx
      · exact .inr ⟨q, by simp [hq], hr⟩

/-- The law of the names goes on while the numbers of the records do. -/
theorem Transmitter.ClosesName.mono {rs qs : List EventRecord} {t : Transmitter} (h : t.ClosesName rs)
    (hs : ∀ r ∈ rs, ∃ q ∈ qs, q.number = r.number) : t.ClosesName qs := by
  refine ⟨h.1, fun e he => ?_⟩
  have := h.2 e he
  cases hc : e.body.closeNumber with
  | none => rfl
  | some n =>
    rw [hc] at this
    simp only [Option.all_some, List.any_eq_true, beq_iff_eq] at this ⊢
    obtain ⟨r, hr, rfl⟩ := this
    exact hs r hr

/-- The law of the names reads the CLOSE entries alone. -/
theorem Transmitter.ClosesName.of_subset {rs : List EventRecord} {t u : Transmitter} (h : t.ClosesName rs)
    (hd : (u.outbox.filterMap (fun e => e.body.closeNumber)).Nodup)
    (hs : ∀ n ∈ u.outbox.filterMap (fun e => e.body.closeNumber),
      n ∈ t.outbox.filterMap (fun e => e.body.closeNumber)) : u.ClosesName rs := by
  refine ⟨hd, fun e he => ?_⟩
  cases hc : e.body.closeNumber with
  | none => rfl
  | some n =>
    have : n ∈ u.outbox.filterMap (fun e => e.body.closeNumber) := List.mem_filterMap.mpr ⟨e, he, hc⟩
    obtain ⟨x, hx, hxc⟩ := List.mem_filterMap.mp (hs n this)
    have := h.2 x hx
    rwa [hxc] at this

/-- A claim opens a record exactly where it finds neither an open nor a closed one and a slot is free; the
open slots are then one more (R26). -/
theorem Table.claim_slots_length (x : Addr) (stamp : Tick) (due : Option Tick) (t : Table) (w : Nat)
    (epoch : Byte) :
    (t.claim x stamp due (t.claimEffect w x stamp epoch)).slots.length
      = t.slots.length + (if t.claimEffect w x stamp epoch = .opens then 1 else 0) := by
  unfold Table.claimEffect
  (repeat' split) <;> simp_all [Table.claim]
  rename_i hu; exact length_updateFirst _ _ _ _ hu

/-- A claim that opens a record at an IN_STEP station: every due already reached has its CLOSE, and nothing
else changes in the outbox (R26, R32). -/
theorem State.applyClaim_reached (x : Addr) (stamp : Tick) (epoch : Byte) (s : State)
    (hi : s.stepState = .inStep) (hn : s.tx.ClosesName s.table.slots)
    (ho : (s.applyClaim x stamp epoch).table.slots.length = s.table.slots.length + 1) :
    (s.applyClaim x stamp epoch).ReachedDuesQueued
      ∧ (∀ e ∈ s.tx.outbox, e ∈ (s.applyClaim x stamp epoch).tx.outbox)
      ∧ ∀ e ∈ (s.applyClaim x stamp epoch).tx.outbox, e ∈ s.tx.outbox
          ∨ ∃ r ∈ (s.applyClaim x stamp epoch).table.slots,
              reachedOpt s.tick r.due = true ∧ e = Entry.fresh (.close r.number) := by
  unfold State.applyClaim at *
  simp only at *
  by_cases he : s.table.claimEffect s.params.w.toNat x stamp epoch = .opens
  · have h4 : s.table.slots.length < 4 := by
      unfold Table.claimEffect at he
      (repeat' split at he) <;> first | assumption | simp at he
    simp only [he, if_true, State.scheduleCloses, hi] at *
    simp only [State.ReachedDuesQueued]
    have key := scheduleCloses_reached s.tick
      (s.table.claim x stamp (s.openingDue x stamp) .opens).slots _ s.tx
      (by simp [Table.claim]; omega) (fun r hr => hr) (hn.mono (by
        intro r hr; exact ⟨r, by simp [Table.claim, hr], rfl⟩))
    exact key
  · exfalso
    rw [if_neg he] at ho
    rw [Table.claim_slots_length, if_neg he] at ho
    omega

/-- Lawful CLOSE entries name records of the table, each another (R32, R68). -/
theorem State.OutboxLaw.closesName {s : State} (h : s.OutboxLaw) : s.tx.ClosesName s.table.slots :=
  ⟨h.1.2.2.2.2.2.2.2.2.1, h.2.2.2.2.2⟩

/-- The dues computed on entry into IN_STEP, as at a self-assert: every one already reached has its CLOSE, and
nothing else changes in the outbox (R31, R32, R124). -/
theorem State.computeDues_reached (s : State) (hi : s.stepState = .inStep)
    (hn : s.tx.ClosesName s.table.slots) (hl : s.table.slots.length ≤ 4) :
    s.computeDues.ReachedDuesQueued
      ∧ (∀ e ∈ s.tx.outbox, e ∈ s.computeDues.tx.outbox)
      ∧ ∀ e ∈ s.computeDues.tx.outbox, e ∈ s.tx.outbox
          ∨ ∃ r ∈ s.computeDues.table.slots,
              reachedOpt s.tick r.due = true ∧ e = Entry.fresh (.close r.number) := by
  simp only [State.ReachedDuesQueued, State.computeDues, State.scheduleCloses, hi, if_true]
  refine scheduleCloses_reached s.tick _ _ s.tx (by simpa using hl) (fun r hr => hr) (hn.mono ?_)
  intro r hr
  exact ⟨_, List.mem_map_of_mem hr, rfl⟩

/-- Deferred offers are no CLOSE: their admission leaves the numbers named (R71). -/
theorem closes_admitOffers (bs : List Body) (es : List Entry) (hb : ∀ b ∈ bs, b.closeNumber = none) :
    ((admitOffers bs es).1.filterMap (fun e => e.body.closeNumber)).Perm
      (es.filterMap (fun e => e.body.closeNumber)) := by
  induction bs generalizing es with
  | nil => exact List.Perm.refl _
  | cons b bs ih =>
    unfold admitOffers; split
    · refine (ih _ (fun b hb' => hb b (by simp [hb']))).trans ?_
      refine ((insertEntry_perm _ _).filterMap _).trans ?_
      have : (Entry.fresh b).body.closeNumber = none := hb b (by simp)
      rw [List.filterMap_cons, this]
    · exact List.Perm.refl _

/-- The completion of an own frame keeps the law of the names: its entry leaves and no CLOSE comes
(R61, R71). -/
theorem State.OutboxLaw.completed_closesName {s : State} (h : s.OutboxLaw) :
    s.completed.tx.ClosesName s.table.slots := by
  have hd : ∀ b ∈ s.tx.deferred, b.closeNumber = none := by
    intro b hb
    have := (h.1.2.2.2.2.2.2.2.2.2.2.2.2.1 b hb).1
    cases b <;> simp [Body.kind] at this <;> rfl
  have hp := closes_admitOffers s.tx.deferred (s.tx.outbox.filter (fun e => !e.sending)) hd
  have hsub : ((s.tx.outbox.filter (fun e => !e.sending)).filterMap (fun e => e.body.closeNumber)).Sublist
      (s.tx.outbox.filterMap (fun e => e.body.closeNumber)) := (List.filter_sublist).filterMap _
  exact h.closesName.of_subset (hp.nodup_iff.mpr (hsub.nodup h.closesName.1))
    (fun n hn => hsub.subset (hp.mem_iff.mp hn))

end Sys2Proof.Machine
end

