-- ==== Sys2Proof/Laws/Record.lean ====
section
/-! SUPPORT. What an acceptance records, and what the vote on it does: the arrival, the vote, and that the
owner's part leaves the record (R66, R67, R88 to R93, R98, R99). -/

namespace Sys2Proof.Machine

/-! ### The record and the vote of an acceptance -/

theorem State.hasFlag_setFlagIf (b : Bool) (f g : Flag) (s : State) :
    (s.setFlagIf b f).hasFlag g = (s.hasFlag g || (b && f == g)) := by
  cases b
  · simp [State.setFlagIf, State.hasFlag]
  · change (s.setFlag f).hasFlag g = _
    by_cases h : f = g
    · subst h; simp
    · have : (f == g) = false := by simpa using h
      simp [this, h]

/-- What is true of one station holds of one that differs in ticks alone. -/
@[simp] theorem RosterEntry.rebase_fields (n : Tick) (e : RosterEntry) :
    (e.rebase n).presence = e.presence ∧ (e.rebase n).inStep = e.inStep ∧ (e.rebase n).armed = e.armed
      ∧ (e.rebase n).mismatched = e.mismatched ∧ (e.rebase n).disagreements = e.disagreements := by
  unfold RosterEntry.rebase; split <;> simp

/-- A heard entry that is not ABSENT is heard at the new value of the counter (R102). -/
theorem RosterEntry.rebase_heard (n : Tick) (e : RosterEntry) (h : e.presence ≠ .absent) :
    (e.rebase n).heard = n := by simp [RosterEntry.rebase, h]

/-- Two rosters agree, entry by entry, in all but the ticks. -/
def Roster.SameMarks (r q : Roster) : Prop := ∀ a : Addr,
  (r.entry a).presence = (q.entry a).presence ∧ (r.entry a).inStep = (q.entry a).inStep
    ∧ (r.entry a).armed = (q.entry a).armed ∧ (r.entry a).mismatched = (q.entry a).mismatched
    ∧ (r.entry a).disagreements = (q.entry a).disagreements

/-- The arrival of an EPOCH moves no entry but in its ticks, and is no vote (R44, R102). -/
theorem State.epochArrival_facts (s : State) :
    s.epochArrival.roster.SameMarks s.roster ∧ s.epochArrival.flags = s.flags
      ∧ s.epochArrival.counter .disagreements = s.counter .disagreements
      ∧ s.epochArrival.table = s.table ∧ s.epochArrival.streak = s.streak
      ∧ s.epochArrival.stepState = s.stepState ∧ s.epochArrival.addr = s.addr
      ∧ s.epochArrival.params = s.params ∧ s.epochArrival.fingerprint = s.fingerprint := by
  unfold State.epochArrival
  split
  · refine ⟨fun a => ?_, ?_⟩
    · simp [State.withdraw, State.setTick]
    · simp [State.withdraw, State.setTick, State.counter]
  · exact ⟨fun a => ⟨rfl, rfl, rfl, rfl, rfl⟩, rfl, rfl, rfl, rfl, rfl, rfl, rfl, rfl⟩

/-- Steps 1 and 2 and the record of step 3, field by field (R44, R66, R67, R98, R99). -/
theorem State.arrive_facts (h : Header) (carried : Option Half) (epoch : Bool) (s t : State)
    (ht : t = s.arrive h carried epoch) :
    t.hasFlag .addressClash = (s.hasFlag .addressClash || h.sender == s.addr)
      ∧ (h.sender ≠ s.addr →
          (t.roster.entry h.sender).inStep = h.inStep ∧ (t.roster.entry h.sender).armed = h.armed
            ∧ (t.roster.entry h.sender).heard = t.tick
            ∧ (t.roster.entry h.sender).mismatched
                = s.markAfter carried (s.roster.entry h.sender).mismatched
            ∧ (t.roster.entry h.sender).disagreements = (s.roster.entry h.sender).disagreements
            ∧ (t.roster.entry h.sender).presence =
                if (s.roster.entry h.sender).presence = .absent then .present
                else (s.roster.entry h.sender).presence)
      ∧ (∀ a, a ≠ h.sender ∨ a = s.addr →
          (t.roster.entry a).presence = (s.roster.entry a).presence
            ∧ (t.roster.entry a).inStep = (s.roster.entry a).inStep
            ∧ (t.roster.entry a).armed = (s.roster.entry a).armed
            ∧ (t.roster.entry a).mismatched = (s.roster.entry a).mismatched
            ∧ (t.roster.entry a).disagreements = (s.roster.entry a).disagreements)
      ∧ t.table = s.table ∧ t.streak = s.streak ∧ t.stepState = s.stepState ∧ t.addr = s.addr
      ∧ t.params = s.params ∧ t.counter .disagreements = s.counter .disagreements
      ∧ (h.sender ≠ s.addr → t.flags = s.flags) := by
  subst ht
  obtain ⟨m, hm, hf⟩ : ∃ m : State,
      m = s.receiverDone.setFlagIf (h.sender == s.addr) .addressClash
        ∧ m.hasFlag .addressClash = (s.hasFlag .addressClash || h.sender == s.addr) := by
    refine ⟨_, rfl, ?_⟩
    rw [State.hasFlag_setFlagIf]
    simp [State.hasFlag, State.receiverDone, State.lineBusy]
  have hs : m.roster = s.roster ∧ m.counter .disagreements = s.counter .disagreements ∧ m.table = s.table
      ∧ m.streak = s.streak ∧ m.stepState = s.stepState ∧ m.addr = s.addr ∧ m.params = s.params
      ∧ m.fingerprint = s.fingerprint ∧ (h.sender ≠ s.addr → m.flags = s.flags) := by
    subst hm
    simp [State.counter, State.receiverDone, State.lineBusy, State.setFlagIf, State.setFlags]
    intro hne; simp [hne]
  obtain ⟨n, hn, hr, hnf, hnc, hnt, hns, hnp, hna, hnpa, hnfp⟩ : ∃ n : State,
      n = (if epoch then m.epochArrival else m) ∧ n.roster.SameMarks m.roster ∧ n.flags = m.flags
        ∧ n.counter .disagreements = m.counter .disagreements ∧ n.table = m.table ∧ n.streak = m.streak
        ∧ n.stepState = m.stepState ∧ n.addr = m.addr ∧ n.params = m.params
        ∧ n.fingerprint = m.fingerprint := by
    refine ⟨_, rfl, ?_⟩
    split
    · exact m.epochArrival_facts
    · exact ⟨fun a => ⟨rfl, rfl, rfl, rfl, rfl⟩, rfl, rfl, rfl, rfl, rfl, rfl, rfl, rfl⟩
  obtain ⟨h1, h2, h3, h4, h5, h6, h7, h8, h9⟩ := hs
  have he : s.arrive h carried epoch = State.record h carried n := by
    rw [State.arrive, hn, hm]
  have hcl : n.hasFlag .addressClash = (s.hasFlag .addressClash || h.sender == s.addr) := by
    rw [← hf]; simp [State.hasFlag, hnf]
  have hmark : ∀ o, n.markAfter carried o = s.markAfter carried o := by
    intro o; unfold State.markAfter State.configured; rw [hnp, h5, hnfp, h8]
  have hadr : n.addr = s.addr := by rw [hna, h6]
  rw [he]; unfold State.record
  refine ⟨hcl, ?_, ?_, by rw [← h3, ← hnt], by rw [← h4, ← hns], by rw [← h5, ← hnp], hadr,
    by rw [← h7, ← hnpa], by rw [← h2, ← hnc]; rfl, fun hne => by rw [← h9 hne, ← hnf]⟩
  · intro hne
    obtain ⟨a, b, c, d, e⟩ := hr h.sender
    rw [h1] at a b c d e
    simp [hadr, hne, RosterEntry.recorded, hmark, a, d, e]
  · intro a ha
    obtain ⟨p, q, c, d, e⟩ := hr a
    rw [h1] at p q c d e
    by_cases hne : h.sender = n.addr
    · simp [hne, p, q, c, d, e]
    · have : a ≠ h.sender := by
        rcases ha with ha | ha
        · exact ha
        · rintro rfl; exact hne (ha.trans hadr.symm)
      simp [hne, this, p, q, c, d, e]

/-! ### The vote -/

/-- The entry into OUT_OF_STEP leaves roster, flags and DISAGREEMENTS (R93). -/
theorem State.enterOutOfStep_facts (s : State) :
    s.enterOutOfStep.roster = s.roster ∧ s.enterOutOfStep.flags = s.flags ∧ s.enterOutOfStep.tick = s.tick
      ∧ s.enterOutOfStep.counter .disagreements = s.counter .disagreements ∧ s.enterOutOfStep.streak = 0
      ∧ s.enterOutOfStep.stepState = .outOfStep ∧ s.enterOutOfStep.addr = s.addr := by
  simp [State.enterOutOfStep, State.openRequester, State.offerRequest, State.offer, State.abandonResponder,
    State.dropDues, State.withdraw, State.counter]

/-- An agreement, entry by entry (R90). -/
theorem State.voteAgree_facts (x : Addr) (s : State) (a : Addr) :
    ((s.voteAgree x).roster.entry a).inStep = (s.roster.entry a).inStep
      ∧ ((s.voteAgree x).roster.entry a).armed = (s.roster.entry a).armed
      ∧ ((s.voteAgree x).roster.entry a).mismatched = (s.roster.entry a).mismatched
      ∧ ((s.voteAgree x).roster.entry a).heard = (s.roster.entry a).heard
      ∧ ((s.voteAgree x).roster.entry a).disagreements = (s.roster.entry a).disagreements
      ∧ (a ≠ s.addr → a ≠ x → addrCount s.streak < s.params.v.toNat →
          ((s.voteAgree x).roster.entry a).presence =
            if hasAddr s.streak a = true then .suspect else (s.roster.entry a).presence)
      ∧ (x ≠ s.addr → (s.roster.entry x).presence ≠ .absent →
          ((s.voteAgree x).roster.entry x).presence = .present) := by
  simp only [State.voteAgree, Roster.entry_update]
  refine ⟨?_, ?_, ?_, ?_, ?_, ?_, ?_⟩
  iterate 5 ((repeat' split) <;> rfl)
  · intro h1 h2 h3; simp [h1, h2, h3]; split <;> simp_all
  · intro h1 h2
    rw [if_neg h1]
    cases hp : (s.roster.entry x).presence <;> first | exact absurd hp h2 | (split <;> simp_all)

/-- A disagreement, whatever comes of it (R91, R93, R96). -/
theorem State.voteDisagree_facts (x : Addr) (s : State) :
    (∀ a, (a ≠ x ∨ a = s.addr → (s.voteDisagree x).roster.entry a = s.roster.entry a)
        ∧ (x ≠ s.addr → (s.voteDisagree x).roster.entry x = { s.roster.entry x with
            disagreements := satAdd8 (s.roster.entry x).disagreements 1 }))
      ∧ (s.voteDisagree x).tick = s.tick ∧ (s.voteDisagree x).addr = s.addr
      ∧ (s.voteDisagree x).hasFlag .addressClash = s.hasFlag .addressClash
      ∧ (s.voteDisagree x).counter .disagreements = satAdd16 (s.counter .disagreements) 1
      ∧ (addrCount (addAddr s.streak x) < s.params.v.toNat →
          (s.voteDisagree x).streak = addAddr s.streak x ∧ (s.voteDisagree x).stepState = s.stepState
            ∧ (s.voteDisagree x).flags = s.flags)
      ∧ (s.params.v.toNat ≤ addrCount (addAddr s.streak x) →
          (s.voteDisagree x).streak = 0
            ∧ (s.stepState = .inStep → (s.voteDisagree x).stepState = .outOfStep)
            ∧ (s.stepState = .mute → (s.voteDisagree x).stepState = .mute
                ∧ (s.voteDisagree x).hasFlag .diverged = true)) := by
  have hc : (s.countDisagreement x).streak = addAddr s.streak x
      ∧ (s.countDisagreement x).params = s.params ∧ (s.countDisagreement x).stepState = s.stepState
      ∧ (s.countDisagreement x).tick = s.tick ∧ (s.countDisagreement x).addr = s.addr
      ∧ (s.countDisagreement x).flags = s.flags
      ∧ (s.countDisagreement x).counter .disagreements = satAdd16 (s.counter .disagreements) 1 :=
    ⟨rfl, rfl, rfl, rfl, rfl, rfl, Counters.read_rise_self _ _ _⟩
  have hr : ∀ a, (a ≠ x ∨ a = s.addr → (s.countDisagreement x).roster.entry a = s.roster.entry a)
        ∧ (x ≠ s.addr → (s.countDisagreement x).roster.entry x = { s.roster.entry x with
            disagreements := satAdd8 (s.roster.entry x).disagreements 1 }) := by
    intro a
    unfold State.countDisagreement
    by_cases hx : x = s.addr
    · simp [hx]
    · constructor
      · rintro (ha | ha)
        · simp [hx, ha]
        · have : a ≠ x := fun e => hx (e ▸ ha)
          simp [hx, this]
      · intro _; simp [hx]
  unfold State.voteDisagree
  generalize s.countDisagreement x = m at hc hr
  obtain ⟨h1, h2, h3, h4, h5, h6, h7⟩ := hc
  simp only [h1, h2, h3]
  have hfl : ∀ f, m.hasFlag f = s.hasFlag f := fun f => by simp [State.hasFlag, h6]
  split
  · rename_i hv
    split
    · rename_i hi
      obtain ⟨e1, e2, e3, e4, e5, e6, e7⟩ := (m.setFlag .leftStep).enterOutOfStep_facts
      have e1' : m.leaveStep.roster = m.roster := by unfold State.leaveStep; rw [e1]; rfl
      refine ⟨by rw [e1']; exact hr, e3.trans h4, e7.trans h5, ?_, ?_, ?_, ?_⟩
      · have : m.leaveStep.hasFlag .addressClash = (m.setFlag .leftStep).hasFlag .addressClash := by
          unfold State.leaveStep State.hasFlag; rw [e2]
        rw [this, State.hasFlag_setFlag_other _ _ _ (by decide), hfl]
      · exact e4.trans h7
      · intro hlt; omega
      · intro _; exact ⟨e5, fun _ => e6, fun hm => by rw [hi] at hm; cases hm⟩
    · rename_i hi
      refine ⟨hr, h4, h5, ?_, h7, fun hlt => by omega, fun _ => ⟨rfl, fun h => absurd h hi, fun hm => ?_⟩⟩
      · have := State.hasFlag_setFlag_other .diverged .addressClash m (by decide)
        rw [hfl] at this; exact this
      · exact ⟨h3.trans hm, State.hasFlag_setFlag_self .diverged m⟩
  · rename_i hv
    exact ⟨hr, h4, h5, hfl _, h7, fun _ => ⟨h1, h3, h6⟩, fun h => absurd h hv⟩

/-- The steps 1 to 3 of an acceptance record the frame (R66, R67, R90, R97 to R99). -/
theorem State.accept_recorded (h : Header) (carried : Option Half) (epoch : Bool) (s : State) :
    s.Recorded h (s.markAfter carried (s.roster.entry h.sender).mismatched) (s.accept h carried epoch) := by
  obtain ⟨f1, f2, f3, f4, f5, f6, f7, f8, f9, f10⟩ := State.arrive_facts h carried epoch s _ rfl
  unfold State.accept
  generalize s.arrive h carried epoch = m at *
  -- what the rest of step 3 may do to the record
  have key : ∀ t : State, t.hasFlag .addressClash = m.hasFlag .addressClash → t.tick = m.tick →
      (∀ a, (t.roster.entry a).inStep = (m.roster.entry a).inStep
        ∧ (t.roster.entry a).armed = (m.roster.entry a).armed
        ∧ (t.roster.entry a).mismatched = (m.roster.entry a).mismatched
        ∧ (t.roster.entry a).heard = (m.roster.entry a).heard) →
      (h.sender ≠ s.addr → (t.roster.entry h.sender).presence =
          if (s.applies = true ∧ h.inStep = true
              ∧ s.markAfter carried (s.roster.entry h.sender).mismatched = false
              ∧ h.count = s.table.count ∧ h.digest = s.table.digest) then .present
          else (m.roster.entry h.sender).presence) →
      s.Recorded h (s.markAfter carried (s.roster.entry h.sender).mismatched) t := by
    intro t k1 k2 k3 k4
    refine ⟨k1.trans f1, fun hne => ?_, fun a ha => ?_⟩
    · obtain ⟨g1, g2, g3, g4, g5, g6⟩ := f2 hne
      obtain ⟨a1, a2, a3, a4⟩ := k3 h.sender
      refine ⟨a1.trans g1, a2.trans g2, (a4.trans g3).trans k2.symm, a3.trans g4, ?_⟩
      rw [k4 hne, g6]
      by_cases hv : (s.applies = true ∧ h.inStep = true
              ∧ s.markAfter carried (s.roster.entry h.sender).mismatched = false
              ∧ h.count = s.table.count ∧ h.digest = s.table.digest) <;> simp [hv]
    · obtain ⟨_, g2, g3, g4, _⟩ := f3 a ha
      obtain ⟨a1, a2, a3, _⟩ := k3 a
      exact ⟨a1.trans g2, a2.trans g3, a3.trans g4⟩
  have hap : m.applies = s.applies := by simp [State.applies, f6]
  have hag : m.agrees h = true ↔ h.count = s.table.count ∧ h.digest = s.table.digest := by
    simp [State.agrees, f4]
  have hvo : h.sender ≠ s.addr → (m.votes h = true ↔ s.applies = true ∧ h.inStep = true
      ∧ s.markAfter carried (s.roster.entry h.sender).mismatched = false) := by
    intro hne
    simp [State.votes, hap, (f2 hne).2.2.2.1, and_assoc]
  unfold State.monitor State.vote
  split
  · rename_i hl
    have hna : s.applies = false := by simp [State.applies, ← f6, hl]
    split
    · obtain ⟨e1, e2, e3, e4, e5, e6, e7⟩ :=
        State.enterOutOfStep_facts { m with listeningEnd := none, lastSent := m.tick }
      apply key
      · simp only [State.hasFlag, State.join, e2]
      · exact e3
      · intro a; unfold State.join; rw [e1]; simp
      · intro _; unfold State.join; rw [e1]; simp [hna]
    · apply key _ rfl rfl (fun a => ⟨rfl, rfl, rfl, rfl⟩); intro _; simp [hna]
  · split
    · rename_i hv
      split
      · rename_i ha
        apply key (m.voteAgree h.sender) rfl rfl
        · intro a; obtain ⟨a1, a2, a3, a4, _⟩ := State.voteAgree_facts h.sender m a; exact ⟨a1, a2, a3, a4⟩
        · intro hne
          have hq := (State.voteAgree_facts h.sender m h.sender).2.2.2.2.2.2 (by rw [f7]; exact hne) (by
            rw [(f2 hne).2.2.2.2.2]
            split
            · exact fun e => Presence.noConfusion e
            · assumption)
          have h1 := (hvo hne).mp hv
          rw [hq, if_pos ⟨h1.1, h1.2.1, h1.2.2, hag.mp ha⟩]
      · rename_i ha
        obtain ⟨d1, d2, d3, d4, _⟩ := State.voteDisagree_facts h.sender m
        apply key _ d4 d2
        · intro a
          by_cases hx : a ≠ h.sender ∨ a = m.addr
          · rw [(d1 a).1 hx]; simp
          · push Not at hx
            obtain ⟨rfl, hx2⟩ := hx
            rw [(d1 h.sender).2 hx2]; simp
        · intro hne
          rw [(d1 h.sender).2 (by rw [f7]; exact hne), if_neg]
          rintro ⟨_, _, _, hc⟩; exact ha (hag.mpr hc)
    · rename_i hv
      apply key _ rfl rfl (fun a => ⟨rfl, rfl, rfl, rfl⟩)
      intro hne; rw [if_neg]; rintro ⟨p, q, r, _⟩; exact hv ((hvo hne).mpr ⟨p, q, r⟩)

/-- The vote that leaves the step state alone changes the roster, the streak, flags and counters only
(R88 to R91, R96). -/
theorem State.KeepsStep.accept {h : Header} {s : State} (hk : s.KeepsStep h) :
    (s.accept h none false).stepState = s.stepState ∧ (s.accept h none false).table = s.table
      ∧ (s.accept h none false).tx = { s.tx with recessive := 0 }
      ∧ (s.accept h none false).tick = s.tick ∧ (s.accept h none false).params = s.params
      ∧ (s.accept h none false).addr = s.addr := by
  obtain ⟨m, hm⟩ : ∃ m, m = s.arrive h none false := ⟨_, rfl⟩
  obtain ⟨f1, f2, f3, f4, f5, f6, f7, f8, f9, f10⟩ := State.arrive_facts h none false s m hm
  have htx : m.tx = { s.tx with recessive := 0 } ∧ m.tick = s.tick
      ∧ (m.roster.entry h.sender).mismatched = (s.roster.entry h.sender).mismatched := by
    subst hm
    refine ⟨by simp [State.arrive, State.record, State.receiverDone, State.lineBusy, State.setFlagIf],
      by simp [State.arrive, State.record, State.receiverDone, State.lineBusy, State.setFlagIf], ?_⟩
    by_cases hne : h.sender = s.addr
    · exact (f3 h.sender (.inr hne)).2.2.2.1
    · exact (f2 hne).2.2.2.1
  have hacc : s.accept h none false = m.monitor h := by rw [hm]; rfl
  rw [hacc, ← htx.1, ← htx.2.1, ← f4, ← f6, ← f7, ← f8]
  have hl : m.stepState ≠ .listening := by
    rw [f6]; rcases hk with hk | ⟨hk, _⟩ <;> simp [hk]
  unfold State.monitor State.vote
  rw [if_neg hl]
  split
  · split
    · exact ⟨rfl, rfl, rfl, rfl, rfl, rfl⟩
    · rename_i hv ha
      have h0 : (m.countDisagreement h.sender).streak = addAddr m.streak h.sender
        ∧ (m.countDisagreement h.sender).params = m.params
        ∧ (m.countDisagreement h.sender).stepState = m.stepState := ⟨rfl, rfl, rfl⟩
      unfold State.voteDisagree
      simp only [h0]
      split
      · split
        · exfalso
          rename_i hthr hi
          rcases hk with hk | ⟨_, hk⟩
          · rw [f6, hk] at hi; cases hi
          · simp only [State.votes, Bool.and_eq_true, Bool.not_eq_true', htx.2.2] at hv
            simp only [State.agrees, f4, Bool.and_eq_true, beq_iff_eq] at ha
            rw [f5, f8] at hthr
            rcases hk with hk | hk | hk | hk
            · rw [hv.1.2] at hk; cases hk
            · rw [hv.2] at hk; cases hk
            · exact ha hk
            · omega
        · exact ⟨rfl, rfl, rfl, rfl, rfl, rfl⟩
      · exact ⟨rfl, rfl, rfl, rfl, rfl, rfl⟩
  · exact ⟨rfl, rfl, rfl, rfl, rfl, rfl⟩

/-- A frame that is voted on: after its arrival comes the one vote or the other (R88 to R91). -/
theorem State.accept_voted (h : Header) (carried : Option Half) (epoch : Bool) (s : State)
    (ha : s.applies = true) (hi : h.inStep = true)
    (hm : ∀ m, m = s.arrive h carried epoch → (m.roster.entry h.sender).mismatched = false) :
    ∃ m : State, m = s.arrive h carried epoch ∧ s.accept h carried epoch =
      if h.count = s.table.count ∧ h.digest = s.table.digest then m.voteAgree h.sender
      else m.voteDisagree h.sender := by
  obtain ⟨m, hmm⟩ : ∃ m, m = s.arrive h carried epoch := ⟨_, rfl⟩
  refine ⟨m, hmm, ?_⟩
  have hx := hm m hmm
  obtain ⟨f1, f2, f3, f4, f5, f6, f7, f8, f9, f10⟩ := State.arrive_facts h carried epoch s m hmm
  have : s.accept h carried epoch = m.monitor h := by rw [hmm]; rfl
  rw [this]
  have h1 : m.stepState ≠ .listening := by
    intro e; rw [f6] at e; simp [State.applies, e] at ha
  have h2 : m.applies = true := by rw [← ha]; simp [State.applies, f6]
  have hag : m.agrees h = true ↔ h.count = s.table.count ∧ h.digest = s.table.digest := by
    simp [State.agrees, f4]
  unfold State.monitor State.vote
  rw [if_neg h1, if_pos (by simp [State.votes, h2, hi, hx])]
  by_cases hg : m.agrees h = true
  · rw [if_pos hg, if_pos (hag.mp hg)]
  · rw [if_neg hg, if_neg (fun e => hg (hag.mpr e))]

/-! ### The owner's part -/

/-- A record stands while roster, tick and ADDRESS_CLASH do. -/
theorem State.Recorded.of_eq {h : Header} {mark : Bool} {s t u : State} (hr : s.Recorded h mark t)
    (h1 : u.roster = t.roster) (h2 : u.tick = t.tick)
    (h3 : u.hasFlag .addressClash = t.hasFlag .addressClash) : s.Recorded h mark u := by
  unfold State.Recorded at *; rw [h1, h2, h3]; exact hr

/-- A record stands at a set of the tick counter, the sender being heard at the new value (R102). -/
theorem State.Recorded.setTick {h : Header} {mark : Bool} {s t : State} (n : Tick)
    (hr : s.Recorded h mark t) : s.Recorded h mark (t.setTick n) := by
  obtain ⟨a, b, c⟩ := hr
  refine ⟨a, fun hne => ?_, fun x hx => ?_⟩
  · obtain ⟨b1, b2, _, b4, b5⟩ := b hne
    have hp : (t.roster.entry h.sender).presence ≠ .absent := by
      rw [b5]; split
      · simp
      · rename_i hn; exact fun e => hn (.inl e)
    simp only [State.setTick, Roster.entry_update]
    refine ⟨by simpa using b1, by simpa using b2, RosterEntry.rebase_heard n _ hp, by simpa using b4,
      by simpa using b5⟩
  · simpa [State.setTick] using c x hx

/-- An offer to the Order Queue sets no ADDRESS_CLASH. -/
theorem State.offerOrder_clash (o : Order) (s : State) :
    (s.offerOrder o).hasFlag .addressClash = s.hasFlag .addressClash := by
  unfold State.offerOrder
  split
  · rfl
  · rw [State.hasFlag_setFlag_other _ _ _ (by decide)]; rfl
  · rw [State.hasFlag_setFlag_other _ _ _ (by decide)]; rfl
  · rfl

/-- An ordered frame sets no ADDRESS_CLASH. -/
theorem State.applyFrame_clash (a : Addr) (b : Sequenced) (s : State) :
    (s.applyFrame a b).hasFlag .addressClash = s.hasFlag .addressClash := by
  cases b with
  | claim st ep =>
    simp only [State.applyFrame, State.applyClaim]; split <;> simp [State.hasFlag]
  | close n =>
    simp only [State.applyFrame, State.applyClose]
    split
    · simp [State.hasFlag, State.withdraw]
    · split
      · have := fun (o : Order) (m : State) => State.offerOrder_clash o m
        simp only [State.hasFlag, State.withdraw] at this ⊢
        rw [this]; simp
      · simp [State.hasFlag, State.withdraw]
  | epoch =>
    simp only [State.applyFrame, State.applyEpoch]; split <;> simp [State.hasFlag, State.withdraw]

/-- The held frames set no ADDRESS_CLASH. -/
theorem State.applyHeld_clash (fs : List Held) (s : State) :
    (s.applyHeld fs).hasFlag .addressClash = s.hasFlag .addressClash := by
  induction fs generalizing s with
  | nil => rfl
  | cons f fs ih => rw [State.applyHeld, ih, State.applyFrame_clash]

/-- A failure leaves the roster, the tick and ADDRESS_CLASH (R122 to R124). -/
theorem State.fail_record (k : FailKind) (s : State) :
    (s.fail k).roster = s.roster ∧ (s.fail k).tick = s.tick
      ∧ (s.fail k).hasFlag .addressClash = s.hasFlag .addressClash := by
  unfold State.fail
  simp only
  split
  · simp [State.nextAttempt, State.offerRequest, State.offer, State.hasFlag]
  · split
    · refine ⟨by simp [State.selfAssert], by simp [State.selfAssert], ?_⟩
      have := State.hasFlag_setFlag_other .selfAsserted .addressClash s (by decide)
      simpa [State.selfAssert, State.computeDues, State.hasFlag] using this
    · simp [State.hasFlag]

/-- An install leaves the roster, the tick and ADDRESS_CLASH (R118 to R121). -/
theorem State.install_record (hd : SnapHeader) (rs : List EventRecord) (s : State) :
    (s.install hd rs).roster = s.roster ∧ (s.install hd rs).tick = s.tick
      ∧ (s.install hd rs).hasFlag .addressClash = s.hasFlag .addressClash := by
  unfold State.install
  split
  · exact s.fail_record .gap
  · refine ⟨by simp [State.computeDues], by simp [State.computeDues], ?_⟩
    have := State.applyHeld_clash ‹_› { s with table := installedTable hd rs }
    simpa [State.computeDues, State.hasFlag] using this

/-- Step 4 for a CLAIM, CLOSE or EPOCH leaves the record. -/
theorem State.Recorded.ownSequenced {h : Header} {mark : Bool} {s t : State} (g : Header) (b : Sequenced)
    (hr : s.Recorded h mark t) : s.Recorded h mark (t.ownSequenced g b) := by
  unfold State.ownSequenced
  split
  · exact hr.of_eq (by simp) (by simp) (State.applyFrame_clash _ _ _)
  · exact hr.of_eq (by simp) (by simp) (State.applyFrame_clash _ _ _)
  · unfold State.holdFrame
    split
    · split
      · exact hr.of_eq rfl rfl rfl
      · exact hr.of_eq (t.fail_record _).1 (t.fail_record _).2.1 (t.fail_record _).2.2
    · exact hr
  all_goals exact hr

/-- The record of a CLEAR stands (R40, R41). -/
theorem State.applyClear_record (s : State) :
    s.applyClear.roster = s.roster ∧ s.applyClear.tick = s.tick
      ∧ s.applyClear.hasFlag .addressClash = s.hasFlag .addressClash := by
  refine ⟨by simp [State.applyClear], by simp [State.applyClear], ?_⟩
  have := State.hasFlag_setFlagIf (!s.orders.isEmpty) .ordersFlushed .addressClash s
  rw [show (Flag.ordersFlushed == Flag.addressClash) = false from rfl, Bool.and_false, Bool.or_false] at this
  simpa [State.applyClear, State.abandonResponder, State.flushOrders, State.withdraw, State.hasFlag,
    State.setFlagIf] using this

/-- Step 4 for a CLEAR leaves the record. -/
theorem State.Recorded.ownClear {h : Header} {mark : Bool} {s t : State} (tick : Tick) (epoch : Byte)
    (hr : s.Recorded h mark t) : s.Recorded h mark (t.ownClear tick epoch) := by
  have hc : ∀ m : State, s.Recorded h mark m → s.Recorded h mark m.applyClear := fun m hm =>
    hm.of_eq m.applyClear_record.1 m.applyClear_record.2.1 m.applyClear_record.2.2
  unfold State.ownClear
  split
  · exact hc t hr
  · exact hc t hr
  · have h1 := hc ({ t with requester := Requester.idle }.withdraw (Body.isKind .stateReq))
      (hr.of_eq (by simp) (by simp) (by simp [State.hasFlag]))
    unfold State.clearOutOfStep
    generalize State.applyClear ({ t with requester := Requester.idle }.withdraw (Body.isKind .stateReq))
      = m at h1
    have h2 : s.Recorded h mark { m with table := { m.table with epoch := epoch } } :=
      h1.of_eq rfl rfl rfl
    have h3 := h2.setTick (tickPlus tick 1)
    simp only
    generalize State.setTick (tickPlus tick 1) { m with table := { m.table with epoch := epoch } } = n at h3
    exact h3.of_eq (by simp) (by simp) (by simp [State.hasFlag])
  all_goals exact hr

/-- Step 4 for a STATE leaves the record but at the entry into CONFLICT (R112, R127, R132). -/
theorem State.Recorded.ownState {h : Header} {mark : Bool} {s t : State} (g : Header) (body : List Byte)
    (hr : s.Recorded h mark t) (hc : t.stepState = .outOfStep → (t.ownState g body).stepState ≠ .conflict) :
    s.Recorded h mark (t.ownState g body) := by
  have hf : ∀ k (m : State), s.Recorded h mark m → s.Recorded h mark (m.fail k) := fun k m hm =>
    hm.of_eq (m.fail_record _).1 (m.fail_record _).2.1 (m.fail_record _).2.2
  have hi : ∀ hd rs (m : State), s.Recorded h mark m → s.Recorded h mark (m.install hd rs) :=
    fun hd rs m hm => hm.of_eq (m.install_record _ _).1 (m.install_record _ _).2.1 (m.install_record _ _).2.2
  unfold State.ownState at *
  split
  · exact hr
  · rename_i b hb
    simp only [hb] at hc
    split
    · rename_i ho
      have hc := hc ho
      simp only [ho] at hc
      unfold State.requesterState at *
      split
      · exact hr
      · rename_i ht
        simp only [ht, if_false] at hc
        split
        · rename_i d hp
          simp only [hp] at hc
          split
          · rename_i h0
            simp only [h0, if_true] at hc
            unfold State.examineHeader at *
            split
            · rename_i hne; simp only [hne, ne_eq, not_false_eq_true, if_true] at hc; exact absurd rfl hc
            · split
              · exact hf _ _ hr
              · split
                · simp only
                  rename_i hd tick _ _
                  have h1 : s.Recorded h mark (t.takeHeader g.sender b.total.toNat hd tick) := by
                    unfold State.takeHeader
                    have h0 : s.Recorded h mark { t with requester :=
                        { t.requester with phase := .requesting none, unanswered := 0 } } :=
                      hr.of_eq rfl rfl rfl
                    have h1 := h0.setTick (tickPlus tick 1)
                    exact h1.of_eq rfl rfl rfl
                  split
                  · exact hi _ _ _ h1
                  · exact h1
                · exact hf _ _ hr
          · exact hr
        · split
          · unfold State.takeChunk
            split
            · exact hf _ _ hr
            · split
              · exact hf _ _ hr
              · split
                · exact hf _ _ hr
                · split
                  · exact hf _ _ hr
                  · simp only
                    split
                    · exact hi _ _ _ hr
                    · exact hr.of_eq rfl rfl rfl
          · exact hr
        · exact hr
    · unfold State.responderState State.headerHeard
      split
      · split
        · simp only
          (repeat' split) <;> exact hr.of_eq (by simp [State.takeLatch]) (by simp [State.takeLatch])
            (by simp [State.hasFlag, State.takeLatch])
        · exact hr
      · exact hr
    all_goals exact hr

/-- Step 4 for a STATE_REQ leaves the record (R126). -/
theorem State.Recorded.ownStateReq {h : Header} {mark : Bool} {s t : State} (g : Header)
    (hr : s.Recorded h mark t) : s.Recorded h mark (t.ownStateReq g) := by
  unfold State.ownStateReq State.requestHeard
  (repeat' split) <;> exact hr

end Sys2Proof.Machine
end

