-- ==== Sys2Proof/Tests/Slice0.lean ====
section
/-! SUPPORT. Tests of one step or one operation each, their results taken from the manual's worked examples
and tables, and for each statement with hypotheses a concrete state and operands that meet them, clause by
clause. -/

namespace Sys2Proof.Tests

set_option Elab.async false

open Sys2Proof Sys2Proof.Machine

/-! ### Small states -/

/-- W = 10, G = 4, Q = 2, H = 20, P = 1000, V = 2, as the manual's examples have them. -/
def cfg : Params := { w := 10, g := 4, q := 2, h := 20, p := 1000, v := 2 }

/-- The fingerprint of `cfg` (R138). -/
def fp : Half := fingerprintOf cfg

/-- Station 2, in step and armed at tick 2000 in epoch 3, with an empty table. -/
def base : State :=
  { State.reset with
    inReset := false, addr := 2, params := cfg, fingerprint := fp, tick := 2000, stepState := .inStep,
    armed := true, table := { Table.founding fp with epoch := 3 },
    port := { Port.reset with txn := .idle }, lastSent := 2000 }

/-- Event 17 of the example of 1.7, open, with its due at station 2. -/
def event17 : EventRecord := openedRecord 17 3 1000 5 (some 1026)

/-- Event 17 closed as in the example of 1.7. -/
def closed17 : EventRecord :=
  { event17 with
    state := .accepted, closing := some { cause := .opener, closer := 5 },
    members := [⟨5, 0⟩, ⟨2, 6⟩], due := none, note := some .ordered }

/-- `base` with event 17 open. -/
def opened : State := { base with table := { base.table with slots := [event17], next := 18 } }

/-- `base` with event 17 in history and its order waiting. -/
def ordered : State :=
  { base with
    table := { base.table with history := [closed17], next := 18 },
    orders := [{ order := closed17.order, pending := false }] }

/-- A command's bytes are being shifted in. -/
def taking (s : State) : State :=
  { s with csnHigh := false, port := { Port.reset with txn := .command } }

/-- A response is being shifted out. -/
def answering (c : Commit) (s : State) : State :=
  { s with csnHigh := false,
           port := { Port.reset with txn := .response, commit := c, statusOut := true } }

/-- A frame is being received. -/
def hearing (s : State) : State := { s with rx := .receiving }

/-- The station's own frame is on the line. -/
def sending (b : Body) (s : State) : State :=
  { s with tx := { s.tx with
      outbox := [{ body := b, attempts := 0, sending := true, mark := false }],
      onLine := some (s.frameOf b) } }

/-- `sending` with an attempt count. -/
def tried (n : Nat) (b : Body) (s : State) : State :=
  { sending b s with tx := { (sending b s).tx with
      outbox := [{ body := b, attempts := n, sending := true, mark := false }] } }

/-- The station out of step, its requester in a phase. -/
def lost (p : RequesterPhase) : State :=
  { base with stepState := .outOfStep,
              requester := { phase := p, attempt := 1, unanswered := 0, hold := [] } }

/-- The station in its listening period, which ends at tick 2000. -/
def listening : State := { base with stepState := .listening, listeningEnd := some 2000, armed := false }

/-- An unconfigured station out of reset. -/
def fresh : State := { State.reset with inReset := false, port := { Port.reset with txn := .idle } }

/-- A frame of an in-step peer that agrees with the state. -/
def agreeing (a : Addr) (s : State) : Header :=
  { sender := a, inStep := true, armed := false, count := s.table.count, digest := s.table.digest }

/-- A frame of an in-step peer that disagrees with the state. -/
def differing (a : Addr) (s : State) : Header := { agreeing a s with count := s.table.count + 1 }

/-- A frame of a peer that is out of step. -/
def outside (a : Addr) : Header := { sender := a, inStep := false, armed := false, count := 0, digest := 0 }

/-- The next state of a command. -/
def after (c : Instr) (s : State) : State :=
  match exec c s with
  | .next t => t
  | .fault _ | .refused _ => s

/-! ### Which commands can be written -/

theorem test_wf_refuses_an_odd_state_body :
    (Instr.stateAccepted (outside 1) (List.replicate 19 0)).wf = false := by decide +kernel
theorem test_wf_refuses_a_short_state_body :
    (Instr.stateAccepted (outside 1) (List.replicate 16 0)).wf = false := by decide +kernel
theorem test_wf_refuses_a_long_state_body :
    (Instr.stateAccepted (outside 1) (List.replicate 50 0)).wf = false := by decide +kernel
theorem test_wf_refuses_a_whole_command_as_a_beginning :
    (Instr.transactionOpen [0x61#8, 0#8, 0#8]).wf = false ∧ (Instr.transactionOpen [0x21#8]).wf = false
      ∧ (Instr.transactionOpen [0x61#8, 0#8]).wf = true ∧ (Instr.transactionOpen []).wf = true := by
  decide +kernel
theorem test_wf_refuses_a_known_code : (Instr.unknownCommand 0x11#8).wf = false := by decide +kernel
theorem test_wf_takes_a_state_body :
    (Instr.stateAccepted (outside 1) (List.replicate 18 0)).wf = true := by decide +kernel

/-! ### Layouts: the examples of R22, R177, R178 and R179 -/

theorem test_crc_of_the_nine_digits :
    crc16 0xFFFF#16 [0x31#8, 0x32#8, 0x33#8, 0x34#8, 0x35#8, 0x36#8, 0x37#8, 0x38#8, 0x39#8]
      = 0x29B1#16 := by decide +kernel
theorem test_digested_bytes_of_the_run_of_claims :
    digestedBytes 9 (.claim 1013 3) = [0x59#8, 0x00#8, 0x03#8, 0xF5#8, 0x03#8]
      ∧ digestedBytes 5 (.close 17) = [0x45#8, 0x00#8, 0x11#8] := by decide +kernel
theorem test_event_17_as_it_is_carried :
    { closed17 with late := addrBit 11 }.payload
      = [0x00#8, 0x11#8, 0x03#8, 0x00#8, 0x03#8, 0xE8#8, 0x05#8, 0x11#8, 0x05#8, 0x00#8, 0x02#8,
         0x08#8, 0x00#8, 0x05#8, 0x00#8, 0x02#8, 0x06#8] := by decide +kernel
theorem test_no_table_word_spells_a_command : decodeTableWord 8 0x11 = none := rfl
theorem test_a_frame_with_a_wrong_crc :
    Decode.frame [0x12#8, 0x80#8, 0#8, 0#8, 0#8, 0#8, 0#8, 0#8] = .frameDiscarded .crc := by decide +kernel

/-! ### Dues, offsets and distances: the examples of R12, R30, R80 -/

theorem test_dues_of_the_manual :
    closeDue cfg 5 5 1000 = 1014 ∧ closeDue cfg 0 5 1000 = 1018 ∧ closeDue cfg 2 5 1000 = 1026
      ∧ closeDue cfg 15 5 1000 = 1078 ∧ closeDue cfg 5 5 16777200 = 16777214
      ∧ closeDue cfg 0 5 16777200 = 2 := by decide +kernel
theorem test_offsets_across_the_wrap :
    (offsetOf 10 3 16777210).toInt = 9 ∧ (offsetOf 10 16777213 4).toInt = -7 := by decide +kernel
theorem test_hold_off_ends_after_h_ticks :
    State.inHoldOff { base with tick := 2020, lastClaimed := some 2000 } = true
      ∧ State.inHoldOff { base with tick := 2021, lastClaimed := some 2000 } = false := by decide +kernel

/-! ### The run of claims of 1.7 -/

theorem test_claim_opens_event_17 :
    (after (.claimAccepted (agreeing 5 base) 1000 3)
        (hearing { base with table := { base.table with next := 17 } })).table.slots = [event17] := by
  decide +kernel
theorem test_claim_joins_event_17 :
    ((after (.claimAccepted (agreeing 2 opened) 1006 3) (hearing { opened with addr := 11 })).table.slots.map
        EventRecord.members) = [[⟨5, 0⟩, ⟨2, 6⟩]] := by decide +kernel
theorem test_claim_of_another_epoch_is_stale :
    (after (.claimAccepted (agreeing 11 opened) 2 2) (hearing opened)).table.stale = 1 := by decide +kernel
theorem test_claim_falls_late :
    ((after (.claimAccepted (agreeing 11 ordered) 995 3) (hearing ordered)).table.history.map
        EventRecord.late) = [0x0800#16] := by decide +kernel
theorem test_claim_out_of_every_window_opens :
    (after (.claimAccepted (agreeing 9 opened) 1013 3) (hearing opened)).table.next = 19 := by decide +kernel

/-! ### The edge sequence of 4.6 -/

theorem test_edge_is_claimed :
    (after .trigEdge base).tx.outbox = [Entry.fresh (.claim 2000 3)]
      ∧ (after .trigEdge base).lastClaimed = some 2000 := by decide +kernel
theorem test_edge_is_merged :
    (after .trigEdge { base with tick := 2005, lastClaimed := some 2000 }).counter .trigMerged = 1 := by
  decide +kernel
theorem test_disarmed_edge_is_ignored :
    (after .trigEdge { base with armed := false }).counter .trigIgnored = 1 := by decide +kernel
theorem test_claim_expires_at_2014 :
    (after .refArrival { base with tick := 2013, tx := base.tx.admitEntry (.claim 2000 3) }).tx.outbox = []
      ∧ (after .refArrival { base with tick := 2013, tx := base.tx.admitEntry (.claim 2000 3) }).counter
          .claimsWithdrawn = 1 := by decide +kernel

/-! ### Flags, status and reads -/

theorem test_status_byte_of_an_armed_station : base.statusByte = 0x0A#8 := by decide +kernel
theorem test_ack_clears_what_the_copy_showed :
    (after .ackFlagsCommit (answering (.ackFlags 0x0009#16 0x0001#16) { base with flags := 0x009#9 })).flags
      = 0x008#9 := by decide +kernel
theorem test_take_order_gives_eight_bytes :
    (after .takeOrder (taking ordered)).port.response
      = [0x1A#8, 0x00#8, 0x00#8, 0x11#8, 0x03#8, 0x00#8, 0x03#8, 0xE8#8, 0x05#8, 0x02#8] := by decide +kernel
theorem test_a_line_in_reset_asserts_nothing :
    State.alertLine { State.reset with flags := 1 } = false
      ∧ State.orderLine { ordered with inReset := true } = false := by decide +kernel

/-! ### Witnesses: the hypotheses of the statements can be met

A theorem `witness_<statement>_<clause>` shows a state and operands for which every hypothesis of the
clause holds; the ends of ranges stand where a range has them. -/

/-- A lawful station with much in hand: an open record, a closed one, an order, a claim and a PRESENCE in
the outbox, and a command that waits. -/
def busy : State :=
  { base with
    table := { base.table with slots := [event17], history := [{ closed17 with number := 16 }], next := 18 },
    orders := [{ order := closed17.order, pending := false }],
    tx := (base.tx.admitEntry (.claim 1990 3)).admitEntry (.presence fp), streak := addrBit 7,
    pending := [.trigEdge] }

theorem witness_invariants :
    busy.PhaseLaw ∧ busy.TableLaw ∧ busy.OutboxLaw ∧ busy.OrdersLaw
      ∧ step busy = .next (after .trigEdge { busy with pending := [] }) :=
  ⟨by decide +kernel, by decide +kernel, by decide +kernel, by decide +kernel, rfl⟩

theorem witness_CountersAndFlagsOnlyRise :
    exec .trigEdge { base with flags := 0x08#9 } = .next (after .trigEdge { base with flags := 0x08#9 })
      ∧ State.hasFlag .leftStep { base with flags := 0x08#9 } = true := ⟨rfl, by decide +kernel⟩
/-- `base` with no general place free: six claims stand. -/
def sixClaims : State :=
  { base with tx := { base.tx with outbox := List.replicate 6 (Entry.fresh (.claim 1999 3)) } }
theorem witness_CountersAndFlagsOnlyRise_set :
    exec .trigEdge sixClaims = .next (after .trigEdge sixClaims)
      ∧ sixClaims.hasFlag .claimRefused = false
      ∧ (after .trigEdge sixClaims).hasFlag .claimRefused = true := ⟨rfl, by decide +kernel⟩
theorem witness_CountersAndFlagsOnlyRise_order :
    exec .trigEdge ordered = .next (after .trigEdge ordered) ∧ ordered.orderLine = true :=
  ⟨rfl, by decide +kernel⟩

theorem witness_ConfigurationIsHeld :
    exec .arm (taking base) = .next (after .arm (taking base)) ∧ base.configured = true :=
  ⟨rfl, by decide +kernel⟩

theorem witness_ConflictAndMuteAreLeftByResets_conflict :
    State.PhaseLaw { base with stepState := .conflict, streak := 0 }
      ∧ exec .refArrival { base with stepState := .conflict }
          = .next (after .refArrival { base with stepState := .conflict }) := ⟨by decide +kernel, rfl⟩
theorem witness_ConflictAndMuteAreLeftByResets_mute :
    State.PhaseLaw { base with stepState := .mute }
      ∧ exec .refArrival { base with stepState := .mute }
          = .next (after .refArrival { base with stepState := .mute }) := ⟨by decide +kernel, rfl⟩

theorem witness_BusSideLeavesTheBoardSide :
    Instr.boardSide .trigEdge = false ∧ exec .trigEdge base = .next (after .trigEdge base)
      ∧ State.attention { base with attention := true } = true := ⟨rfl, rfl, rfl⟩
theorem witness_BoardSideLeavesTheBusSide :
    Instr.boardSide .readStatus = true
      ∧ exec .readStatus (taking base) = .next (after .readStatus (taking base)) := ⟨rfl, rfl⟩

/-- Event 17 as another station holds it: another due. -/
def elsewhere : State := { opened with addr := 5, table := { opened.table with
  slots := [openedRecord 17 3 1000 5 (some 1014)] } }

theorem witness_SameFramesGiveTheSameTable :
    opened.table.shared = elsewhere.table.shared ∧ opened.fingerprint = elsewhere.fingerprint
      ∧ opened.params.w = elsewhere.params.w ∧ opened.params.q = elsewhere.params.q
      ∧ (agreeing 7 (opened.applyAll [(5, some (.close 17))])).count
          = (opened.applyAll [(5, some (.close 17))]).table.count
      ∧ (agreeing 7 (opened.applyAll [(5, some (.close 17))])).digest
          = (opened.applyAll [(5, some (.close 17))]).table.digest := by decide +kernel

theorem witness_SnapshotOfALawfulTableIsTaken :
    busy.TableLaw ∧ (busy.snapshot.records[0]?).isSome = true
      ∧ (busy.snapshot.records[1]?).isSome = true := by decide +kernel

/-- A frame the snapshot includes already, and the one applied after it. -/
def oldHeld : Held := { sender := 5, body := .claim 1000 3, count := opened.table.count - 1 }
/-- The frame applied after the snapshot. -/
def newHeld : Held := { sender := 5, body := .close 17, count := opened.table.count }

/-- A requester that holds both. -/
def collector : State :=
  { lost (.requesting (some 2096)) with requester :=
      { phase := .requesting (some 2096), attempt := 1, unanswered := 0, hold := [oldHeld, newHeld] } }

theorem witness_InstallReachesTheLiveTable :
    collector.requester.hold = [oldHeld] ++ [newHeld]
      ∧ (∀ f ∈ [oldHeld], countBefore f.count opened.table.count = true)
      ∧ newHeld.count = opened.table.count + BitVec.ofNat 16 0
      ∧ collector.fingerprint = opened.fingerprint ∧ collector.params.w = opened.params.w
      ∧ collector.params.q = opened.params.q := by decide +kernel

/-- A frame of a kind with a body of zeros. -/
def blankFrame (k : Kind) (n : Nat) : Frame :=
  { kind := k, header := agreeing 5 base, body := List.replicate n 0 }

theorem witness_FrameOnTheLineIsReadBack :
    (blankFrame .state 18).kind.lengthOk (blankFrame .state 18).body.length = true
      ∧ (blankFrame .state 48).kind.lengthOk (blankFrame .state 48).body.length = true
      ∧ (blankFrame .epoch 0).kind.lengthOk (blankFrame .epoch 0).body.length = true := by decide +kernel

theorem witness_BoardCommandBytesAreReadBack :
    (Instr.setConfig 10 4 2 20 1000 2).wf = true
      ∧ Decode.commandBytes (.setConfig 10 4 2 20 1000 2)
          = some [0x11#8, 10#8, 4#8, 2#8, 20#8, 0x03#8, 0xE8#8, 2#8]
      ∧ (Instr.unknownCommand 0x10#8).wf = true
      ∧ Decode.commandBytes (.unknownCommand 0x10#8) = some [0x10#8] := by decide +kernel

theorem witness_PinResetHoldsAndReleases :
    State.reset.inReset = true ∧ base.inReset = false := by decide +kernel

theorem witness_TheCounterCountsAndIsSet_uncounted :
    fresh.inReset = false ∧ fresh.stepState = .unconfigured := by decide +kernel
theorem witness_TheCounterCountsAndIsSet_counted :
    base.inReset = false ∧ base.stepState ≠ .unconfigured ∧ base.stepState ≠ .listening := by
  decide +kernel
theorem witness_TheCounterCountsAndIsSet_set :
    base.params.inRange = true ∧ (lost (.requesting (some 2001))).testRequest = lost (.requesting (some 2001))
      ∧ base.testChunk = base ∧ (lost (.retryWait 2001)).testRetry = lost (.retryWait 2001)
      ∧ base.testDelay = base ∧ base.testListening = base := by decide +kernel

theorem witness_TrigEdgeIsDecided : base.inReset = false := by decide +kernel

/-- `base` after CSn fell and the code of SET_CONFIG and W = 10 were shifted in. -/
def midCommand : State := after (.transactionOpen [0x11#8, 10#8]) base

theorem test_arguments_stand_between_commands :
    midCommand.port.txn = .arguments ∧ midCommand.takesCommand (.setConfig 10 4 2 20 1000 2) = true
      ∧ midCommand.takesCommand (.setConfig 11 4 2 20 1000 2) = false ∧ midCommand.takesCommand .arm = false
      ∧ (after (.setConfig 10 4 2 20 1000 2) midCommand).port.txn = .response := by decide +kernel
theorem test_csn_rise_in_arguments_ends_the_transaction :
    (after .transactionEnd midCommand).port = { Port.reset with txn := .idle }
      ∧ (after .transactionEnd midCommand).flags = base.flags
      ∧ (after .transactionEnd midCommand).counters = base.counters := by decide +kernel

theorem witness_TransactionsRunToTheirEnd_arguments :
    base.inReset = false ∧ base.csnHigh = true ∧ base.port.txn = .idle
      ∧ Decode.commandBytes (.ackFlags 0x0102#16) = some [0x61#8, 0x01#8, 0x02#8]
      ∧ (List.replicate 6 (0 : Byte)).length < 7 ∧ [(0 : Byte)].length < 2
      ∧ midCommand.inReset = false ∧ midCommand.csnHigh = false := by decide +kernel

theorem witness_TransactionsRunToTheirEnd_open :
    base.inReset = false ∧ base.csnHigh = true ∧ base.port.txn = .idle := by decide +kernel
theorem witness_TransactionsRunToTheirEnd_end :
    (taking base).inReset = false ∧ (taking base).csnHigh = false := by decide +kernel
theorem witness_TransactionsRunToTheirEnd_status :
    (after .arm (taking base)).inReset = false ∧ (after .arm (taking base)).port.txn = .response
      ∧ (after .arm (taking base)).port.statusOut = false := by decide +kernel
theorem witness_TransactionsRunToTheirEnd_response :
    (answering .nothing base).inReset = false ∧ (answering .nothing base).port.txn = .response
      ∧ (answering .nothing base).port.statusOut = true
      ∧ (answering .nothing base).port.commit = .nothing := by decide +kernel

theorem witness_SetConfigIsAnswered :
    (taking fresh).takesCommand (.setConfig 1 1 1 0 16 1) = true ∧ (taking fresh).stepState = .unconfigured
      ∧ (taking base).takesCommand (.setConfig 1 1 1 0 16 1) = true ∧ (taking base).stepState ≠ .unconfigured
      ∧ Params.inRange ⟨1, 1, 1, 0, 16, 1⟩ = true ∧ Params.inRange ⟨127, 63, 16, 255, 4095, 3⟩ = true
      ∧ Params.inRange ⟨128, 63, 16, 255, 4095, 3⟩ = false
      ∧ Params.inRange ⟨1, 1, 1, 0, 15, 1⟩ = false := by decide +kernel

theorem witness_ShortCommandsAreAnswered :
    (taking base).takesCommand .arm = true ∧ (taking base).takesCommand .disarm = true
      ∧ (taking base).takesCommand .askClear = true ∧ (taking base).takesCommand .askEpoch = true
      ∧ (taking base).takesCommand (.unknownCommand 0xFF#8) = true ∧ (taking base).stepState = .inStep
      ∧ (taking fresh).takesCommand .arm = true ∧ (taking fresh).stepState = .unconfigured
      ∧ (Instr.unknownCommand 0xFF#8).wf = true := by decide +kernel

theorem witness_TakeOrderDeliversTheHead :
    (taking base).takesCommand .takeOrder = true ∧ (taking base).orders = []
      ∧ (taking ordered).takesCommand .takeOrder = true
      ∧ (taking ordered).orders = [{ order := closed17.order, pending := false }]
      ∧ State.endsIn .takeOrder (answering .takeOrder ordered) = true
      ∧ (∀ o ∈ (answering .takeOrder ordered).orders, o.pending = false)
      ∧ (after .takeOrder (taking ordered)).orders = [{ order := closed17.order, pending := true }] := by
  decide +kernel

theorem witness_EventsAreListedStagedAndRead :
    (taking busy).takesCommand .listEvents = true ∧ (taking busy).takesCommand (.stageEvent 17) = true
      ∧ (taking busy).takesCommand (.stageEvent 18) = true ∧ event17.number = 17
      ∧ event17 ∈ (taking busy).table.slots ++ (taking busy).table.history
      ∧ (∀ r ∈ (taking busy).table.slots ++ (taking busy).table.history, r.number ≠ 18)
      ∧ (taking busy).table.Law (taking busy).params.w.toNat ∧ (taking busy).stage = none
      ∧ State.takesCommand (.readStage 16 8) { taking base with stage := some (List.replicate 47 0) } = true
      ∧ State.stage { taking base with stage := some (List.replicate 47 0) } = some (List.replicate 47 0) := by
  decide +kernel

theorem witness_StatusRosterAndCountersAreRead :
    (taking base).takesCommand .readStatus = true ∧ (taking base).takesCommand .readRoster = true
      ∧ (1 : Addr) ≠ (taking base).addr ∧ (taking base).takesCommand (.readCounters 0 16) = true
      ∧ (taking base).takesCommand (.readCounters 15 1) = true
      ∧ (taking base).takesCommand (.readCounters 15 2) = true
      ∧ (taking base).takesCommand (.readCounters 0 0) = true := by decide +kernel
/-- R159, R162: the status byte of STAGE_EVENT shows the stage valid set at its taking (log 17). -/
theorem test_stage_event_shows_stage_valid :
    (after (.stageEvent 17) (taking opened)).port.response = [0x4A#8, 0x00#8, 16#8] := by decide +kernel

theorem witness_FlagsAreAcknowledged :
    (taking base).takesCommand (.ackFlags 0x1FF#16) = true
      ∧ (answering (.ackFlags 0x1FF#16 0x1FF#16) base).inReset = false
      ∧ (answering (.ackFlags 0x1FF#16 0x1FF#16) base).port.txn = .response
      ∧ (answering (.ackFlags 0x1FF#16 0x1FF#16) base).port.commit = .ackFlags 0x1FF#16 0x1FF#16
      ∧ (answering (.ackFlags 0x1FF#16 0x1FF#16) base).port.statusOut = true := by decide +kernel

theorem witness_RestartIsAnsweredAndCommitted :
    State.endsIn .restart (answering .restart base) = true ∧ base.stepState ≠ .conflict
      ∧ (answering .restart base).port.statusOut = true
      ∧ State.endsIn .restart (answering .restart { base with stepState := .conflict }) = true := by
  decide +kernel

theorem test_held_count_starts_a_frame :
    (after (.transmissionStart 0) (after .lineIdle busy)).tx.onLine.isSome = true
      ∧ (after (.transmissionStart 11) busy).tx.onLine.isSome = false
      ∧ (after .lineIdle busy).rxRecessive = 12 ∧ (after .lineIdle busy).rx = .ready := by decide +kernel
theorem witness_TransmissionStartsTheHead_inStep :
    busy.inReset = false ∧ busy.rx ≠ .receiving ∧ busy.tx.onLine = none ∧ busy.tx.breaking = false
      ∧ busy.tx.outbox = [Entry.fresh (.claim 1990 3), Entry.fresh (.presence fp)]
      ∧ busy.stepState = .inStep := by decide +kernel
theorem witness_TransmissionStartsTheHead_outOfStep :
    (lost (.requesting none)).offerRequest.tx.outbox = [Entry.fresh (.stateReq fp 1)]
      ∧ (lost (.requesting none)).offerRequest.stepState = .outOfStep
      ∧ (Body.stateReq fp 1).kind.ordered = false := by decide +kernel

theorem witness_ArbitrationLossKeepsTheEntry_unmarked :
    (sending (.claim 1990 3) base).inReset = false
      ∧ (sending (.claim 1990 3) base).tx.onLine.isSome = true ∧ (sending (.claim 1990 3) base).tx.Law
      ∧ { body := .claim 1990 3, attempts := 0, sending := true, mark := false }
          ∈ (sending (.claim 1990 3) base).tx.outbox := by decide +kernel
theorem witness_ArbitrationLossKeepsTheEntry_marked :
    (State.testExpiry { sending (.claim 1986 3) base with tick := 2000 }).tx.Law
      ∧ { body := .claim 1986 3, attempts := 0, sending := true, mark := true }
          ∈ (State.testExpiry { sending (.claim 1986 3) base with tick := 2000 }).tx.outbox
      ∧ (State.testExpiry { sending (.claim 1986 3) base with tick := 2000 }).tx.deferred = [] := by
  decide +kernel

theorem witness_BitErrorIsRetried :
    (tried 6 (.presence fp) base).inReset = false ∧ (tried 6 (.presence fp) base).tx.onLine.isSome = true
      ∧ (tried 6 (.presence fp) base).tx.Law
      ∧ { body := .presence fp, attempts := 6, sending := true, mark := false }
          ∈ (tried 6 (.presence fp) base).tx.outbox := by decide +kernel
/-- A CLAIM in transmission that has taken a mark at its expiry tick. -/
def expiredOnLine : State := State.testExpiry (tried 6 (.claim 1986 3) base)
theorem witness_BitErrorIsRetried_marked :
    expiredOnLine.inReset = false ∧ expiredOnLine.tx.onLine.isSome = true ∧ expiredOnLine.tx.Law
      ∧ { body := .claim 1986 3, attempts := 6, sending := true, mark := true } ∈ expiredOnLine.tx.outbox
      ∧ expiredOnLine.tx.deferred = [] := by decide +kernel

/-- A responder at its first chunk, to station 9. -/
def serving : State :=
  { base with responder :=
      { phase := .sending 9 base.snapshot (1 + base.snapshot.records.length) 0 false, latch := some 11 } }

/-- A responder with its header sent, its own target latched. -/
def servingOn : State :=
  { busy with responder := { phase := .sending 9 busy.snapshot 3 1 true, latch := some 9 } }

theorem witness_EighthBitErrorDiscards_clear :
    (tried 7 .clear base).OutboxLaw ∧ (tried 7 .clear base).TableLaw
      ∧ (tried 7 .clear base).tx.onLine.isSome = true ∧ (tried 7 .clear base).tx.discards < 2 := by
  (repeat' apply And.intro) <;> decide +kernel
theorem witness_EighthBitErrorDiscards_request :
    (tried 7 (.stateReq fp 1) (lost (.requesting none))).OutboxLaw
      ∧ (tried 7 (.stateReq fp 1) (lost (.requesting none))).TableLaw
      ∧ (tried 7 (.stateReq fp 1) (lost (.requesting none))).tx.deferred = [] := by
  (repeat' apply And.intro) <;> decide +kernel
theorem witness_EighthBitErrorDiscards_close :
    (tried 7 (.close 17) opened).OutboxLaw ∧ (tried 7 (.close 17) opened).TableLaw
      ∧ reachedOpt opened.tick event17.due = true := by
  (repeat' apply And.intro) <;> decide +kernel
theorem witness_EighthBitErrorDiscards_state :
    (tried 7 (.state (serving.snapshot.chunk 9 1 0)) serving).OutboxLaw
      ∧ (tried 7 (.state (serving.snapshot.chunk 9 1 0)) serving).TableLaw := by
  (repeat' apply And.intro) <;> decide +kernel

theorem witness_EighthBitErrorDiscards_presence :
    (tried 7 (.presence fp) { base with tick := 3000 }).OutboxLaw
      ∧ (tried 7 (.presence fp) { base with tick := 3000 }).TableLaw
      ∧ ((3000 : Tick) - (base.lastSent + BitVec.ofNat 24 base.params.p.toNat)).toNat ≤ 8388607
      ∧ (tried 7 (.presence fp) base).OutboxLaw
      ∧ 8388607 < (base.tick - (base.lastSent + BitVec.ofNat 24 base.params.p.toNat)).toNat := by
  (repeat' apply And.intro) <;> decide +kernel
theorem witness_EighthBitErrorDiscards_claim :
    (tried 7 (.claim 1990 3) base).OutboxLaw ∧ (tried 7 (.claim 1990 3) base).TableLaw
      ∧ (tried 7 (.claim 1990 3) base).tx.deferred = [] := by
  (repeat' apply And.intro) <;> decide +kernel

theorem witness_ThirdDiscardMutes :
    Transmitter.Law { (tried 7 (.presence fp) base).tx with discards := 2 }
      ∧ (tried 7 (.presence fp) base).tx.onLine.isSome = true := by decide +kernel

theorem witness_DeferredOffersAndTheLine :
    (∀ b ∈ [Body.presence fp], b.kind.general = true) ∧ (hearing base).tx.onLine = none
      ∧ (hearing base).rx = .receiving ∧ base.rx = .waitIdle ∧ base.tx.breaking = false
      ∧ (after .bitError (tried 6 (.presence fp) base)).tx.breaking = true := by decide +kernel

theorem witness_OwnOrderedFrameIsApplied :
    (sending (.claim 1990 3) base).tx.Law ∧ (sending (.close 17) opened).tx.Law
      ∧ (sending .epoch base).tx.Law ∧ (sending .epoch base).tx.onLine.isSome = true
      ∧ (sending .epoch base).applies = true ∧ opened.table.slots = [] ++ event17 :: []
      ∧ (sending (.claim 1005 3) opened).tx.Law ∧ (sending (.claim 1005 3) opened).tx.deferred = []
      ∧ (after .ownClaimCompletes (sending (.claim 1005 3) opened)).table.slots.length
          = (sending (.claim 1005 3) opened).table.slots.length := by
  (repeat' apply And.intro) <;> decide +kernel
/-- A lawful station in step whose own CLAIM, on the line, opens a record with its due reached. -/
theorem witness_OwnOrderedFrameIsApplied_opens :
    (sending (.claim 1960 3) opened).OutboxLaw ∧ (sending (.claim 1960 3) opened).TableLaw
      ∧ (sending (.claim 1960 3) opened).stepState = .inStep
      ∧ (after .ownClaimCompletes (sending (.claim 1960 3) opened)).table.slots.length
          = (sending (.claim 1960 3) opened).table.slots.length + 1
      ∧ reachedOpt 2000 ((sending (.claim 1960 3) opened).openingDue 2 1960) = true := by
  (repeat' apply And.intro) <;> decide +kernel
theorem witness_OwnOrderedFrameIsApplied_void :
    (sending (.close 18) opened).tx.Law ∧ (sending (.close 18) opened).applies = true
      ∧ (sending (.close 18) opened).tx.onLine.isSome = true
      ∧ (∀ r ∈ (sending (.close 18) opened).table.slots, r.number ≠ 18) := by decide +kernel
theorem test_own_epoch_closes_every_open_record :
    (after .ownEpochCompletes (sending .epoch opened)).table.history
      = [{ event17 with state := .dropped, closing := some { cause := .epoch, closer := 2 }, due := none,
                        note := some .noOrder }] := by decide +kernel
theorem witness_OwnClearIsApplied :
    (sending .clear base).tx.Law ∧ (sending .clear base).applies = true
      ∧ (sending .clear base).tx.onLine.isSome = true := by decide +kernel

theorem witness_OwnSideFrameCompletes_state :
    (sending (.state (serving.snapshot.chunk 9 1 0)) serving).OutboxLaw
      ∧ serving.responder.phase.isSending = true := by decide +kernel
theorem witness_OwnSideFrameCompletes_next :
    (sending (.state (busy.snapshot.chunk 9 3 1)) servingOn).OutboxLaw
      ∧ servingOn.responder.phase = .sending 9 busy.snapshot 3 1 true ∧ 1 + 1 < 3
      ∧ (busy.snapshot.records[1]?).isSome = true := by
  (repeat' apply And.intro) <;> decide +kernel
theorem witness_OwnSideFrameCompletes_request :
    (sending (.stateReq fp 1) (lost (.requesting none))).OutboxLaw
      ∧ (lost (.requesting none)).requester.phase = .requesting none := by decide +kernel
theorem witness_OwnSideFrameCompletes_presence :
    (sending (.presence fp) base).OutboxLaw := by decide +kernel

/-- The records near a stamp at W = 10 in epoch 3, as R24 and R25 have it. -/
abbrev nearStamp (stamp : Tick) (r : EventRecord) : Prop :=
  r.epoch = 3 ∧ ((stamp - r.t0).toNat ≤ 10 ∨ (r.t0 - stamp).toNat ≤ 10)

theorem witness_ClaimMeetsTheFirstOfFiveTests :
    nearStamp 1010 event17 ∧ ¬nearStamp 1011 event17 ∧ nearStamp 990 closed17
      ∧ (∀ x ∈ base.table.slots ++ base.table.history, ¬nearStamp 1000 x)
      ∧ base.table.slots.length < 4 ∧ (4 : Byte) ≠ base.table.epoch
      ∧ (∀ x ∈ List.replicate 4 event17, ¬nearStamp 1011 x) ∧ 4 ≤ (List.replicate 4 event17).length := by
  decide +kernel

theorem witness_NumbersOffsetsAndDuesAreComputed :
    busy.table.slots.length ≤ 4 ∧ busy.table.history.length ≤ 16
      ∧ ((10 : Tick) - 0).toNat ≤ 10 ∧ 1 ≤ ((1 : Tick) - 0).toNat ∧ ((127 : Tick) - 0).toNat ≤ 127
      ∧ (5 : Addr) ≠ 2 := by decide +kernel

/-- Eight orders, numbered 20 to 27. -/
def eightOrders : List QueuedOrder :=
  (List.range 8).map (fun i => { order := { closed17.order with number := BitVec.ofNat 16 (20 + i) },
                                 pending := false })

/-- An armed station with eight orders, none of number 17. -/
def crowded : State := { base with orders := eightOrders }

theorem witness_OffersAreAnswered :
    State.armed { base with armed := false } = false ∧ ordered.armed = true
      ∧ ordered.orders = [] ++ { order := closed17.order, pending := false } :: []
      ∧ crowded.armed = true ∧ (∀ x ∈ crowded.orders, x.order.number ≠ 17) ∧ 8 ≤ crowded.orders.length
      ∧ State.armed { base with orders := eightOrders.take 7 } = true
      ∧ (∀ x ∈ State.orders { base with orders := eightOrders.take 7 }, x.order.number ≠ 17)
      ∧ (State.orders { base with orders := eightOrders.take 7 }).length < 8 := by decide +kernel

theorem witness_acceptances_that_are_applied :
    (hearing opened).receives = true ∧ (hearing opened).tx.Law
      ∧ (hearing opened).KeepsStep (agreeing 5 opened) ∧ (hearing opened).KeepsStep (differing 5 opened)
      ∧ (hearing opened).KeepsStep (outside 5)
      ∧ State.KeepsStep (differing 5 opened) { hearing opened with stepState := .mute }
      ∧ opened.table.slots = [] ++ event17 :: [] ∧ (∀ r ∈ opened.table.slots, r.number ≠ 18) := by
  decide +kernel

theorem witness_AcceptedClaimIsApplied_opens :
    (hearing opened).OutboxLaw ∧ (hearing opened).TableLaw ∧ (hearing opened).stepState = .inStep
      ∧ (after (.claimAccepted (agreeing 5 opened) 1960 3) (hearing opened)).table.slots.length
          = (hearing opened).table.slots.length + 1
      ∧ reachedOpt 2000 ((hearing opened).openingDue 5 1960) = true := by
  (repeat' apply And.intro) <;> decide +kernel
/-- R26, R32: station 2 has (2 + 2) × 4 + 10 ticks from T0 on, so that the record of a claim of tick 1974 is due
as it opens at tick 2000, and the record of a claim of tick 1975 is not. -/
theorem test_claim_opened_with_its_due_reached_is_closed :
    (after (.claimAccepted (agreeing 5 base) 1974 3) (hearing base)).tx.outbox = [Entry.fresh (.close 0)]
      ∧ (after (.claimAccepted (agreeing 5 base) 1975 3) (hearing base)).tx.outbox = [] := by
  decide +kernel

/-- A station whose streak holds one peer, V being 2. -/
def doubting : State := { hearing opened with streak := addrBit 7 }

theorem witness_AcceptedClearIsApplied :
    (hearing opened).PhaseLaw ∧ (hearing opened).OutboxLaw
      ∧ (hearing opened).KeepsStep (agreeing 5 opened)
      ∧ doubting.receives = true ∧ doubting.PhaseLaw ∧ doubting.OutboxLaw
      ∧ doubting.Rejoins (differing 5 opened) ∧ (hearing listening).receives = true
      ∧ (hearing listening).PhaseLaw ∧ (hearing listening).OutboxLaw
      ∧ (hearing listening).Rejoins (agreeing 5 base) := by
  (repeat' apply And.intro) <;> decide +kernel

theorem witness_AcceptedEpochIsApplied :
    (hearing servingOn).receives = true ∧ (hearing servingOn).tx.Law
      ∧ (hearing servingOn).KeepsStep (agreeing 5 servingOn)
      ∧ (hearing servingOn).KeepsStep (outside 5) ∧ (outside 5).inStep = false := by
  (repeat' apply And.intro) <;> decide +kernel

theorem witness_ListenersOnlyRecord :
    (hearing listening).receives = true ∧ (hearing listening).PhaseLaw ∧ (hearing listening).OutboxLaw
      ∧ (hearing listening).OnlyListens (outside 5) ∧ (hearing fresh).receives = true
      ∧ (hearing fresh).PhaseLaw ∧ (hearing fresh).OutboxLaw
      ∧ (hearing fresh).OnlyListens (agreeing 5 base)
      ∧ (Instr.stateAccepted (outside 5) (List.replicate 18 0)).wf = true := by
  (repeat' apply And.intro) <;> decide +kernel

theorem witness_InStepFrameEndsListening :
    (hearing listening).stepState = .listening ∧ (agreeing 5 base).inStep = true := by decide +kernel

/-- An out-of-step station that collects and holds sixteen frames. -/
def heldFull : State :=
  { hearing (lost (.requesting (some 2096))) with requester :=
      { phase := .requesting (some 2096), attempt := 1, unanswered := 0, hold := List.replicate 16 newHeld } }

theorem witness_OutOfStepFramesAreHeld :
    (hearing (lost (.requesting none))).receives = true
      ∧ (hearing (lost (.requesting none))).stepState = .outOfStep
      ∧ (hearing (lost (.requesting none))).requester.collecting = false
      ∧ (hearing (lost (.requesting (some 2096)))).requester.collecting = true
      ∧ (hearing (lost (.requesting (some 2096)))).requester.hold.length < 16
      ∧ heldFull.receives = true ∧ heldFull.stepState = .outOfStep
      ∧ heldFull.requester.collecting = true ∧ 16 ≤ heldFull.requester.hold.length := by decide +kernel

theorem witness_ThresholdTakesTheStationOutOfStep :
    doubting.receives = true ∧ doubting.PhaseLaw ∧ doubting.OutboxLaw
      ∧ doubting.LeavesStep (differing 5 opened) ∧ ¬doubting.LeavesStep (differing 7 opened) := by
  (repeat' apply And.intro) <;> decide +kernel

/-- A MUTE station whose streak holds one peer, V being 2. -/
def muted : State := { doubting with stepState := .mute }

theorem witness_VotesMarkAndCount :
    doubting.receives = true ∧ (agreeing 5 opened).sender ≠ doubting.addr
      ∧ addrCount doubting.streak < doubting.params.v.toNat
      ∧ (differing 5 opened).count ≠ doubting.table.count
      ∧ addrCount (addAddr doubting.streak 7) < doubting.params.v.toNat
      ∧ doubting.params.v.toNat ≤ addrCount (addAddr doubting.streak 5)
      ∧ muted.receives = true ∧ muted.stepState = .mute ∧ hasAddr doubting.streak 7 = true := by decide +kernel
/-- A frame of each kind is voted on: a peer's, and one with the own address as its sender. -/
theorem witness_VotesMarkAndCount_kinds (x : Addr) (hx : x = 5 ∨ x = 7 ∨ x = 2) :
    doubting.VotesOn (agreeing x opened) (.claimAccepted (agreeing x opened) 2000 3)
      ∧ muted.VotesOn (differing x opened) (.closeAccepted (differing x opened) 17)
      ∧ doubting.VotesOn (differing x opened) (.clearAccepted (differing x opened) 2000 3)
      ∧ doubting.VotesOn (differing x opened) (.epochAccepted (differing x opened))
      ∧ muted.VotesOn (agreeing x opened) (.stateAccepted (agreeing x opened) (List.replicate 18 0))
      ∧ doubting.VotesOn (agreeing x opened) (.stateReqAccepted (agreeing x opened) doubting.fingerprint 1)
      ∧ doubting.VotesOn (agreeing x opened) (.presenceAccepted (agreeing x opened) doubting.fingerprint) := by
  have hm : (doubting.roster.entry x).mismatched = false := by
    rcases hx with rfl | rfl | rfl <;> decide +kernel
  exact ⟨⟨rfl, rfl, .inl ⟨.inl ⟨_, _, rfl⟩, hm⟩⟩, ⟨rfl, rfl, .inl ⟨.inr (.inl ⟨_, rfl⟩), hm⟩⟩,
    ⟨rfl, rfl, .inl ⟨.inr (.inr (.inl ⟨_, _, rfl⟩)), hm⟩⟩,
    ⟨rfl, rfl, .inl ⟨.inr (.inr (.inr (.inl rfl))), hm⟩⟩,
    ⟨rfl, rfl, .inl ⟨.inr (.inr (.inr (.inr ⟨_, rfl, rfl⟩))), hm⟩⟩,
    ⟨rfl, rfl, .inr ⟨.inl ⟨_, rfl⟩, .inr hm⟩⟩, ⟨rfl, rfl, .inr ⟨.inr rfl, .inr hm⟩⟩⟩
/-- R91: a disagreeing CLOSE counts and adds its sender to the streak. -/
theorem test_a_disagreeing_close_is_voted_on :
    (after (.closeAccepted (differing 5 opened) 17) (hearing opened)).counter .disagreements = 1
      ∧ (after (.closeAccepted (differing 5 opened) 17) (hearing opened)).streak = addrBit 5 := by decide +kernel

theorem witness_PresenceIsRecorded :
    (hearing base).receives = true ∧ (hearing base).OnlyRecords (outside 5) fp
      ∧ (outside 5).sender ≠ base.addr ∧ (hearing base).OnlyRecords (agreeing 5 base) (fp + 1)
      ∧ (agreeing 5 base).inStep = true ∧ ¬(hearing base).OnlyRecords (agreeing 5 base) fp
      ∧ ¬(hearing listening).OnlyRecords (agreeing 5 base) (fp + 1) := by decide +kernel

/-- The header of `busy`'s snapshot, with `base`'s fingerprint. -/
def goodHeader : SnapHeader := busy.snapshot.header

theorem witness_HeaderIsTakenOrRefused :
    (hearing (lost (.requesting (some 2096)))).receives = true
      ∧ (hearing (lost (.requesting (some 2096)))).OutboxLaw
      ∧ goodHeader.openCount ≤ 4 ∧ goodHeader.historyCount ≤ 16
      ∧ goodHeader.fingerprint = (lost (.requesting (some 2096))).fingerprint
      ∧ 1 < 1 + goodHeader.openCount + goodHeader.historyCount
      ∧ base.snapshot.header.openCount = 0 ∧ base.snapshot.header.historyCount = 0
      ∧ walk 5 [{ newHeld with count := 6 }] = none
      ∧ walk (opened.table.count) [newHeld] = some [newHeld] := by decide +kernel
theorem witness_HeaderIsTakenOrRefused_refused :
    Kind.lengthOk .state (3 + (goodHeader.payload 0).length) = true
      ∧ half ((goodHeader.payload 0).getD 12 0) ((goodHeader.payload 0).getD 13 0) = fp
      ∧ half (({ goodHeader with fingerprint := fp + 1 }.payload 0).getD 12 0)
          (({ goodHeader with fingerprint := fp + 1 }.payload 0).getD 13 0) ≠ fp
      ∧ 4 < (({ goodHeader with openCount := 5 }.payload 0).getD 7 0).toNat
      ∧ 16 < (({ goodHeader with historyCount := 17 }.payload 0).getD 8 0).toNat
      ∧ (2#8).toNat ≠ 1 + ((goodHeader.payload 0).getD 7 0).toNat + ((goodHeader.payload 0).getD 8 0).toNat
      ∧ Kind.lengthOk .state (3 + (goodHeader.payload 0 ++ [0#8, 0#8]).length) = true
      ∧ 3 + (goodHeader.payload 0 ++ [0#8, 0#8]).length ≠ 20 := by decide +kernel
theorem witness_HeaderIsTakenOrRefused_ignored :
    (hearing (lost (.requesting none))).receives = true
      ∧ (lost (.requesting none)).requester.phase = .requesting none
      ∧ (hearing (lost (.retryWait 3000))).receives = true
      ∧ (lost (.retryWait 3000)).requester.phase = .retryWait 3000
      ∧ (lost (.requesting (some 2096))).requester.phase = .requesting (some 2096)
      ∧ (3#8 : Byte) ≠ addrByte base.addr ∧ (1#8 : Byte) ≠ 0
      ∧ State.receives { hearing base with stepState := .mute } = true := by decide +kernel
theorem test_header_of_another_length_fails_the_attempt :
    (after (.stateAccepted (outside 5)
        ([addrByte base.addr, 0#8, 3#8] ++ goodHeader.payload 0 ++ [0#8, 0#8]))
      (hearing (lost (.requesting (some 2096))))).requester
      = { phase := .requesting none, attempt := 2, unanswered := 0, hold := [] } := by decide +kernel

/-- A hold queue with a gap: a frame before the running count, one that meets it, and one after the next. -/
def gapHold : List Held := [oldHeld, newHeld, { newHeld with count := newHeld.count + 2 }]

theorem witness_HeaderIsTakenOrRefused_gap :
    GapAt opened.table.count gapHold ∧ GapAt 0 [{ newHeld with count := 32767 }] := by
  refine ⟨⟨[oldHeld], [newHeld], { newHeld with count := newHeld.count + 2 }, [], rfl, by decide +kernel, ?_,
    by decide +kernel⟩, ⟨[], [], { newHeld with count := 32767 }, [], rfl, by simp, by simp, by decide +kernel⟩⟩
  intro i x hx
  match i, hx with
  | 0, hx => simp at hx; subst hx; decide +kernel
theorem test_a_gap_stops_the_walk : walk opened.table.count gapHold = none := by decide +kernel

/-- A snapshot of two records with the first one taken. -/
def receiving : Receiving :=
  { responder := 5, header := goodHeader, total := 3, expected := 1, records := [], deadline := 2032 }

theorem witness_ChunksAreTakenInOrder_walk :
    countBefore oldHeld.count opened.table.count = true ∧ newHeld.count = opened.table.count
      ∧ countBefore opened.table.count (newHeld.count + 1) = true
      ∧ countBefore opened.table.count (newHeld.count + 32767) = true := by decide +kernel
theorem witness_ChunksAreTakenInOrder :
    (hearing (lost (.receiving receiving))).receives = true
      ∧ Kind.lengthOk .state (3 + event17.payload.length) = true
      ∧ 3 + event17.payload.length = 16 + 2 * event17.replicated.members.length
      ∧ checkRecord cfg.w.toNat (receiving.expected ≤ goodHeader.openCount) goodHeader.epoch
          receiving.records (List.replicate 15 0) = none
      ∧ Kind.lengthOk .state (3 + (List.replicate 15 (0 : Byte)).length) = true
      ∧ (lost (.receiving receiving)).tx.queued .stateReq = false
      ∧ checkRecord cfg.w.toNat (receiving.expected ≤ goodHeader.openCount) goodHeader.epoch
          receiving.records event17.payload = some event17.replicated
      ∧ event17.replicated.payload = event17.payload
      ∧ receiving.expected + 1 < receiving.total
      ∧ { receiving with total := 2 }.expected + 1 = { receiving with total := 2 }.total
      ∧ walk goodHeader.position [] = some []
      ∧ (lost (.receiving receiving)).OutboxLaw ∧ goodHeader.openCount ≤ Config.maxOpen := by
  (repeat' apply And.intro) <;> decide +kernel

/-- A requester that lacks only the record of event 17, closed, and holds the claim that opens event 18. -/
def lastChunk : State :=
  { hearing (lost (.requesting none)) with requester :=
      { phase := .receiving
          { responder := 5, header := ordered.snapshot.header, total := 2, expected := 1, records := [],
            deadline := 2032 },
        attempt := 1, unanswered := 0,
        hold := [{ sender := 5, body := .claim 1900 3, count := ordered.table.count }] } }

/-- R119 to R121: event 17 reads NOT_SEEN, event 18 is open with its due, one frame more is counted. -/
theorem test_the_last_chunk_installs :
    (after (.stateAccepted (outside 5) ([addrByte base.addr, 1#8, 2#8] ++ closed17.payload)) lastChunk).table
      = { ordered.table with
            count := ordered.table.count + 1,
            digest := crc16 ordered.table.digest [0x55#8, 0x00#8, 0x07#8, 0x6C#8, 0x03#8], next := 19,
            slots := [openedRecord 18 3 1900 5 (some 1926)],
            history := [{ closed17 with note := some .notSeen }] } := by decide +kernel

/-- A responder in its answer delay for station 9, with an empty latch. -/
def delaying : State := { base with responder := { phase := .delay 9 2000, latch := none } }

theorem witness_RequestsAreAnsweredOrLatched :
    (hearing base).receives = true ∧ base.stepState = .inStep ∧ (outside 9).inStep = false
      ∧ (outside 9).sender ≠ base.addr ∧ (hearing base).responder.phase = .idle
      ∧ (hearing delaying).receives = true ∧ (hearing delaying).responder.phase = .delay 9 2000
      ∧ (hearing serving).receives = true
      ∧ (hearing serving).responder.phase = .sending 9 base.snapshot 1 0 false
      ∧ (hearing base).OnlyRecords (outside 9) fp
      ∧ (hearing base).OnlyRecords (agreeing 9 base) (fp + 1) ∧ (outside 2).sender = base.addr := by
  decide +kernel
theorem witness_RequestsAreAnsweredOrLatched_elsewhere :
    (hearing fresh).receives = true ∧ fresh.stepState ≠ .inStep
      ∧ (hearing fresh).OnlyRecords (agreeing 9 base) fp ∧ (agreeing 9 base).sender ≠ fresh.addr
      ∧ (hearing listening).OnlyRecords (outside 9) fp
      ∧ (hearing (lost (.requesting none))).OnlyRecords (agreeing 9 base) fp := by decide +kernel

theorem witness_ResponderStandsDown :
    stateBodyTargets 9 ([9#8, 0#8, 3#8] ++ goodHeader.payload 0) = true
      ∧ (hearing delaying).receives = true ∧ (hearing delaying).stepState = .inStep
      ∧ (hearing delaying).tx.Law ∧ (hearing delaying).responder.phase = .delay 9 2000
      ∧ (hearing delaying).KeepsStep (agreeing 5 delaying) ∧ (agreeing 5 delaying).inStep = true
      ∧ stateBodyTargets 9 ([9#8, 0#8, 3#8] ++ List.replicate 15 0) = true
      ∧ stateBodyTargets 9 ([9#8, 0#8, 3#8] ++ List.replicate 45 0) = true
      ∧ Kind.lengthOk .state ([9#8, 1#8, 3#8] ++ event17.payload).length = true
      ∧ ([9#8, 1#8, 3#8] ++ event17.payload).getD 1 0 ≠ 0#8
      ∧ Kind.lengthOk .state ([16#8, 0#8, 3#8] ++ goodHeader.payload 0).length = true
      ∧ 15 < (([16#8, 0#8, 3#8] ++ goodHeader.payload 0).getD 0 0).toNat := by
  decide +kernel
theorem witness_ResponderStandsDown_sending :
    (hearing serving).receives = true ∧ (hearing serving).stepState = .inStep ∧ (hearing serving).tx.Law
      ∧ (hearing serving).responder.phase = .sending 9 base.snapshot 1 0 false
      ∧ (hearing servingOn).receives = true
      ∧ servingOn.responder.phase = .sending 9 busy.snapshot 3 1 true
      ∧ servingOn.responder.latch = some 9
      ∧ (hearing serving).KeepsStep (agreeing 5 serving)
      ∧ (hearing servingOn).KeepsStep (agreeing 5 servingOn) := by decide +kernel

theorem witness_DuesAndExpiriesAreActedOn :
    opened.inReset = false ∧ opened.OutboxLaw ∧ opened.TableLaw ∧ opened.stepState = .inStep
      ∧ opened.tx.deferred = [] ∧ event17 ∈ opened.table.slots
      ∧ reachedOpt opened.tick event17.due = true := by
  (repeat' apply And.intro) <;> decide +kernel

/-- Station 2 at a tick, station 5 last heard at 0. -/
def lateAt (now : Tick) : State :=
  { base with tick := now, roster := base.roster.modify 5 (fun e => { e with presence := .present }) }

theorem witness_PresenceAndAbsenceAreTimed :
    (lateAt 3000).inReset = false ∧ (lateAt 3000).transmits = true
      ∧ ((lateAt 3000).tick
          - ((lateAt 3000).lastSent + BitVec.ofNat 24 (lateAt 3000).params.p.toNat)).toNat ≤ 8388607
      ∧ (lateAt 3000).tx.queued .presence = false ∧ generalCount (lateAt 3000).tx.outbox < 6
      ∧ (lateAt 4000).stepState ≠ .unconfigured ∧ (5 : Addr) ≠ (lateAt 4000).addr
      ∧ ((lateAt 4000).roster.entry 5).presence ≠ .absent := by decide +kernel
theorem witness_PresenceAndAbsenceAreTimed_deferred :
    State.transmits { sixClaims with tick := 3000 } = true
      ∧ ((3000 : Tick) - (sixClaims.lastSent + BitVec.ofNat 24 sixClaims.params.p.toNat)).toNat ≤ 8388607
      ∧ sixClaims.tx.queued .presence = false ∧ 6 ≤ generalCount sixClaims.tx.outbox := by decide +kernel
theorem witness_PresenceAndAbsenceAreTimed_none :
    fresh.inReset = false ∧ fresh.transmits = false
      ∧ 8388607 < ((lateAt 2999).tick
          - ((lateAt 2999).lastSent + BitVec.ofNat 24 (lateAt 2999).params.p.toNat)).toNat
      ∧ busy.tx.queued .presence = true := by decide +kernel
theorem witness_PresenceAndAbsenceAreTimed_ends :
    ((lateAt 4000).tick - (((lateAt 4000).roster.entry 5).heard
        + BitVec.ofNat 24 (4 * (lateAt 4000).params.p.toNat))).toNat ≤ 8388607
      ∧ 8388607 < ((lateAt 3999).tick - (((lateAt 3999).roster.entry 5).heard
        + BitVec.ofNat 24 (4 * (lateAt 3999).params.p.toNat))).toNat := by decide +kernel

/-- A request that has gone unanswered three times, its deadline reached, with station 1 present or not. -/
def unheard (present : Bool) : State :=
  { lost (.requesting (some 2000)) with
    requester := { phase := .requesting (some 2000), attempt := 4, unanswered := 3, hold := [] },
    roster := if present then base.roster.modify 1 (fun e => { e with presence := .present })
              else base.roster }

theorem witness_ResyncDeadlinesAreActedOn :
    (lost (.requesting (some 2000))).inReset = false
      ∧ ((lost (.requesting (some 2000))).tick - 2000).toNat ≤ 8388607
      ∧ (lost (.requesting (some 2000))).requester.unanswered < 3
      ∧ 3 ≤ (unheard false).requester.unanswered ∧ (unheard false).selfAsserts = true
      ∧ (unheard true).selfAsserts = false
      ∧ (lost (.receiving { receiving with deadline := 2000 })).requester.phase
          = .receiving { receiving with deadline := 2000 }
      ∧ (lost (.retryWait 2000)).requester.phase = .retryWait 2000
      ∧ (lost (.retryWait 2000)).tx.queued .stateReq = false
      ∧ (lost (.requesting (some 2000))).tx.queued .stateReq = false := by decide +kernel

/-- Event 17 as it stands out of step, without its due, at a station about to self-assert. -/
def unheardOpened : State :=
  { unheard false with table := { base.table with slots := [{ event17 with due := none }], next := 18 } }

theorem witness_ResyncDeadlinesAreActedOn_closes :
    unheardOpened.inReset = false ∧ unheardOpened.requester.phase = .requesting (some 2000)
      ∧ 3 ≤ unheardOpened.requester.unanswered ∧ unheardOpened.selfAsserts = true
      ∧ unheardOpened.stepState = .outOfStep ∧ unheardOpened.OutboxLaw ∧ unheardOpened.TableLaw
      ∧ reachedOpt 2000 event17.due = true := by
  (repeat' apply And.intro) <;> decide +kernel
/-- R30 to R32, R124: at the self-assert event 17 has its due of tick 1026 again, and its CLOSE at once. -/
theorem test_self_assert_closes_what_is_due :
    (after .requestDeadline unheardOpened).table.slots = [event17]
      ∧ (after .requestDeadline unheardOpened).tx.outbox = [Entry.fresh (.close 17)] := by decide +kernel

theorem witness_DelayAndListeningEnd :
    delaying.inReset = false ∧ (delaying.tick - 2000).toNat ≤ 8388607
      ∧ delaying.responder.phase = .delay 9 2000 ∧ delaying.tx.queued .state = false
      ∧ generalCount delaying.tx.outbox < 6
      ∧ 6 ≤ generalCount (State.tx { delaying with tx := sixClaims.tx }).outbox
      ∧ (State.tx { delaying with tx := sixClaims.tx }).queued .state = false
      ∧ listening.inReset = false ∧ (listening.tick - 2000).toNat ≤ 8388607
      ∧ listening.stepState = .listening ∧ listening.listeningEnd = some 2000
      ∧ listening.tx.outbox = [] := by decide +kernel

end Sys2Proof.Tests
end

/-! Event numbers, offsets and dues computed (R12, R20, R30), the five tests of a claim (R23 to R27), and the
statements closed by evaluation. -/

namespace Sys2Proof.Machine

/-- Settles O1: the step's two equations. -/
theorem stepRunsTheFrontCommand : Obligations.StepRunsTheFrontCommand := by
  intro c rest s
  exact ⟨rfl, rfl⟩

/-- Settles O2, law by law. -/
theorem resetStateIsLawful : Obligations.ResetStateIsLawful := by
  have hphase : State.reset.PhaseLaw := by decide
  have htable : State.reset.TableLaw := by decide
  have houtbox : State.reset.OutboxLaw := by decide
  have horders : State.reset.OrdersLaw := by decide
  exact ⟨hphase, htable, houtbox, horders⟩

/-- Settles O18, word by word. -/
theorem wordsOfTheManualAreRead : Obligations.WordsOfTheManualAreRead := by
  refine ⟨?crc, ?claim, ?close, ?epoch, ?setConfig, ?readStage, ?unknown, ?noKind⟩
  case crc => decide +kernel
  case claim => decide
  case close => decide
  case epoch => decide
  case setConfig => decide
  case readStage => decide
  case unknown => decide
  case noKind => decide

/-! ### Numbers (R20) -/

/-- The search stops at a number it finds free, or when it has passed over as many as it may. -/
theorem freeNumber_spec (held : Half → Bool) (fuel : Nat) (n : Half) :
    ∃ k ≤ fuel, freeNumber held fuel n = n + BitVec.ofNat 16 k
      ∧ (∀ j < k, held (n + BitVec.ofNat 16 j) = true)
      ∧ (held (freeNumber held fuel n) = false ∨ k = fuel) := by
  induction fuel generalizing n with
  | zero => exact ⟨0, le_refl _, by simp [freeNumber], by simp, .inr rfl⟩
  | succ fuel ih =>
    have hshift : ∀ j : Nat, n + 1 + BitVec.ofNat 16 j = n + BitVec.ofNat 16 (j + 1) := by
      intro j; rw [Nat.add_comm, BitVec.ofNat_add, BitVec.add_assoc]; rfl
    unfold freeNumber
    by_cases hn : held n = true
    · obtain ⟨k, hk, heq, hall, hend⟩ := ih (n + 1)
      rw [if_pos hn]
      refine ⟨k + 1, by omega, by rw [heq, hshift], ?_, hend.imp_right (congrArg (· + 1))⟩
      intro j hj
      cases j with
      | zero => simpa using hn
      | succ j => rw [← hshift]; exact hall j (by omega)
    · rw [if_neg hn]
      exact ⟨0, by omega, by simp, by simp, .inl (by simpa using hn)⟩

/-- The numbers the records of a table hold. -/
theorem Table.heldNumber_iff (t : Table) (n : Half) :
    t.heldNumber n = true ↔ n ∈ (t.slots ++ t.history).map EventRecord.number := by
  simp only [Table.heldNumber, List.any_eq_true, beq_iff_eq, List.mem_map]

/-- So few records cannot hold every number of a run that is one longer than they are many. -/
theorem not_all_held (numbers : List Half) (n : Half) (hl : numbers.length < 65535) :
    ¬ ∀ j ≤ numbers.length, n + BitVec.ofNat 16 j ∈ numbers := by
  intro hall
  have hinj : Set.InjOn (fun j : Nat => n + BitVec.ofNat 16 j) (Finset.range (numbers.length + 1)) := by
    intro i hi j hj hij
    simp only [Finset.coe_range, Set.mem_Iio] at hi hj
    have := congrArg BitVec.toNat (BitVec.add_right_inj n |>.mp hij)
    simp only [BitVec.toNat_ofNat, Nat.reducePow] at this
    omega
  have hsub : (Finset.range (numbers.length + 1)).image (fun j : Nat => n + BitVec.ofNat 16 j)
      ⊆ numbers.toFinset := by
    intro m hm
    obtain ⟨j, hj, rfl⟩ := Finset.mem_image.mp hm
    exact List.mem_toFinset.mpr (hall j (by simpa [Nat.lt_succ_iff] using hj))
  have hcard := Finset.card_le_card hsub
  rw [Finset.card_image_of_injOn hinj, Finset.card_range] at hcard
  have := numbers.toFinset_card_le
  omega

/-- The next number is one no record holds, and every number passed over is held (R20). -/
theorem Table.nextNumber_spec (t : Table) (hl : (t.slots ++ t.history).length < 65535) :
    t.nextNumber ∉ (t.slots ++ t.history).map EventRecord.number
      ∧ ∃ k ≤ (t.slots ++ t.history).length, t.nextNumber = t.next + BitVec.ofNat 16 k
          ∧ ∀ j < k, t.next + BitVec.ofNat 16 j ∈ (t.slots ++ t.history).map EventRecord.number := by
  obtain ⟨k, hk, heq, hall, hend⟩ := freeNumber_spec t.heldNumber (t.slots ++ t.history).length t.next
  simp only [Table.heldNumber_iff] at hall
  refine ⟨fun hmem => ?_, k, hk, heq, hall⟩
  have hfull : k = (t.slots ++ t.history).length := by
    rcases hend with hfree | hfull
    · have hheld := (Table.heldNumber_iff t t.nextNumber).mpr hmem
      unfold Table.nextNumber at hheld
      rw [hfree] at hheld; cases hheld
    · exact hfull
  refine not_all_held ((t.slots ++ t.history).map EventRecord.number) t.next
    (by rwa [List.length_map]) fun j hj => ?_
  rw [List.length_map] at hj
  rcases Nat.lt_or_ge j k with hlt | hge
  · exact hall j hlt
  · have : j = k := by omega
    rw [this, ← heq]; exact hmem

/-- A member's offset within the window is the signed difference, the short way round (R12). -/
theorem offsetOf_toInt (w : Nat) (stamp t0 : Tick) (hw : w ≤ 127) :
    ((stamp - t0).toNat ≤ w → (offsetOf w stamp t0).toInt = ((stamp - t0).toNat : Int))
      ∧ (1 ≤ (t0 - stamp).toNat → (t0 - stamp).toNat ≤ w →
          (offsetOf w stamp t0).toInt = -((t0 - stamp).toNat : Int)) := by
  have hs := stamp.isLt
  have ht := t0.isLt
  constructor
  · intro h
    rw [offsetOf, if_pos h, BitVec.toInt_eq_toNat_bmod, BitVec.toNat_ofNat, Int.bmod_def]
    omega
  · intro h1 h2
    have hfar : ¬ (stamp - t0).toNat ≤ w := by
      rw [BitVec.toNat_sub] at h1 h2 ⊢; omega
    rw [offsetOf, if_neg hfar, BitVec.toInt_neg, BitVec.toInt_eq_toNat_bmod, BitVec.toNat_ofNat,
      Int.bmod_def, Int.bmod_def]
    omega

/-- A tick plus a span is taken modulo 2^24 (Conventions, Ticks). -/
theorem tickPlus_toNat (t : Tick) (n : Nat) : (tickPlus t n).toNat = (t.toNat + n) % 2 ^ 24 := by
  simp [tickPlus, BitVec.toNat_add]

/-- Settles O41: the three computations, each by its own lemma. -/
theorem numbersOffsetsAndDuesAreComputed : Obligations.NumbersOffsetsAndDuesAreComputed := by
  refine ⟨fun t hs hh => ?_, fun w stamp t0 hw => offsetOf_toInt w stamp t0 hw, fun p own opener t0 => ?_⟩
  · have hlen : (t.slots ++ t.history).length ≤ 20 := by rw [List.length_append]; omega
    obtain ⟨hfree, k, hk, heq, hpassed⟩ := t.nextNumber_spec (by omega)
    refine ⟨fun r hr hn => hfree (hn ▸ List.mem_map_of_mem hr), k, by omega, heq, fun j hj => ?_⟩
    obtain ⟨r, hr, hn⟩ := List.mem_map.mp (hpassed j hj)
    exact ⟨r, hr, hn⟩
  · refine ⟨?_, fun hne => ?_⟩
    · rw [closeDue, if_pos rfl, tickPlus_toNat, Nat.add_assoc]
    · rw [closeDue, if_neg hne, tickPlus_toNat, Nat.add_assoc]

/-! ### A claim's five tests (R23 to R27) -/

/-- The match of R24 and R25 in plain arithmetic. -/
theorem EventRecord.matchesClaim_iff (w : Nat) (epoch : Byte) (stamp : Tick) (r : EventRecord) :
    r.matchesClaim w epoch stamp = true
      ↔ r.epoch = epoch ∧ ((stamp - r.t0).toNat ≤ w ∨ (r.t0 - stamp).toNat ≤ w) := by
  simp [EventRecord.matchesClaim, within]

theorem EventRecord.isMember_iff (a : Addr) (r : EventRecord) :
    r.isMember a = true ↔ a ∈ r.members.map Member.addr := by
  simp [EventRecord.isMember, List.mem_map]

/-- Settles O40, test by test. -/
theorem claimMeetsTheFirstOfFiveTests : Obligations.ClaimMeetsTheFirstOfFiveTests := by
  intro w sender stamp epoch due t near hnear
  have hmatch : ∀ r, r.matchesClaim w t.epoch stamp = true ↔ near r := fun r => by
    rw [hnear, EventRecord.matchesClaim_iff]
  have hmiss : ∀ l : List EventRecord, (∀ x ∈ l, ¬near x) →
      ∀ x ∈ l, x.matchesClaim w t.epoch stamp = false := fun l hl x hx => by
    rw [← Bool.not_eq_true, hmatch]; exact hl x hx
  refine ⟨fun hstale => ?_, fun a r b he hslots hbefore hr => ?_, fun a r b he hopen hhist hbefore hr => ?_,
    fun he hfar hroom => ?_, fun _ _ => rfl, fun he hfar hfull => ?_⟩
  · rw [Table.claimEffect, if_pos hstale, Table.claim]
  · have hfound := updateFirst_append _ (EventRecord.join w sender stamp) a r b (hmiss a hbefore)
      ((hmatch r).mpr hr)
    rw [Table.claimEffect, if_neg (not_not.mpr he), hslots, hfound]
    simp only [Table.claim, EventRecord.join, EventRecord.isMember_iff]
  · have hnone := (updateFirst_none _ (EventRecord.join w sender stamp) t.slots).mpr (hmiss _ hopen)
    have hfound := updateFirst_append _ (EventRecord.joinLate sender) a r b (hmiss a hbefore)
      ((hmatch r).mpr hr)
    rw [Table.claimEffect, if_neg (not_not.mpr he), hnone, hhist, hfound]
    simp only [Table.claim, EventRecord.joinLate, EventRecord.isMember_iff]
    rfl
  · have hslots := (updateFirst_none _ (EventRecord.join w sender stamp) t.slots).mpr
      (hmiss _ fun x hx => hfar x (List.mem_append_left _ hx))
    have hhist := (updateFirst_none _ (EventRecord.joinLate sender) t.history).mpr
      (hmiss _ fun x hx => hfar x (List.mem_append_right _ hx))
    rw [Table.claimEffect, if_neg (not_not.mpr he), hslots, hhist]
    simp only [Config.maxOpen, hroom, if_true, Table.claim]
  · have hslots := (updateFirst_none _ (EventRecord.join w sender stamp) t.slots).mpr
      (hmiss _ fun x hx => hfar x (List.mem_append_left _ hx))
    have hhist := (updateFirst_none _ (EventRecord.joinLate sender) t.history).mpr
      (hmiss _ fun x hx => hfar x (List.mem_append_right _ hx))
    rw [Table.claimEffect, if_neg (not_not.mpr he), hslots, hhist]
    simp only [Config.maxOpen, Nat.not_lt.mpr hfull, if_false, Table.claim]

end Sys2Proof.Machine

/-! The table after an ordered frame, and that its replicated part is a function of the replicated part
before, W, Q and the fingerprint (R21, R180). -/

namespace Sys2Proof.Machine

/-! ### The table after an ordered frame (R21) -/

/-- The table after a CLOSE, `note` giving the order note of the record it closes (R33 to R37). -/
def Table.closed (q : Nat) (sender : Addr) (number : Half) (note : EventRecord → OrderNote) (t : Table) :
    Table :=
  match takeFirst (fun r => r.number == number) t.slots with
  | none => { t with void := satAdd8 t.void 1 }
  | some (r, rest) =>
    { t with slots := rest, history := pushHistory t.history (r.closed q sender (note r)) }

theorem State.applyClaim_table (a : Addr) (stamp : Tick) (epoch : Byte) (s : State) :
    (s.applyClaim a stamp epoch).table =
      s.table.claim a stamp (s.openingDue a stamp) (s.table.claimEffect s.params.w.toNat a stamp epoch) := by
  unfold State.applyClaim
  dsimp only
  split <;> simp

theorem State.applyClose_table (a : Addr) (n : Half) (s : State) :
    (s.applyClose a n).table = s.table.closed s.params.q.toNat a n s.closeNote := by
  unfold State.applyClose Table.closed
  cases takeFirst (fun r => r.number == n) s.table.slots with
  | none => simp
  | some found =>
    dsimp only
    split <;> simp

theorem State.applyEpoch_table (a : Addr) (s : State) : (s.applyEpoch a).table = s.table.epochEnds a := by
  unfold State.applyEpoch
  dsimp only
  split <;> simp

theorem State.applyClear_table (s : State) : s.applyClear.table = s.table.cleared s.fingerprint := by
  simp [State.applyClear]

/-- The table after a CLAIM, CLOSE or EPOCH: counted and digested, then the kind's own effect (R21). -/
theorem State.applyFrame_table (a : Addr) (body : Sequenced) (s : State) :
    (s.applyFrame a body).table =
      match body with
      | .claim stamp epoch =>
        Table.claim a stamp (s.openingDue a stamp) (s.table.advance (digestedBytes a body))
          (Table.claimEffect s.params.w.toNat a stamp epoch (s.table.advance (digestedBytes a body)))
      | .close n => (s.table.advance (digestedBytes a body)).closed s.params.q.toNat a n s.closeNote
      | .epoch => (s.table.advance (digestedBytes a body)).epochEnds a := by
  cases body with
  | claim stamp epoch => simp only [State.applyFrame, State.applyClaim_table]; rfl
  | close n => simp only [State.applyFrame, State.applyClose_table]; rfl
  | epoch => simp only [State.applyFrame, State.applyEpoch_table]

/-! ### The replicated part (R180) -/

theorem updateFirst_map {α : Type} (p : α → Bool) (f g : α → α) (hp : ∀ x, p (g x) = p x)
    (hf : ∀ x, f (g x) = g (f x)) (l : List α) :
    updateFirst p f (l.map g) = (updateFirst p f l).map (List.map g) := by
  induction l with
  | nil => rfl
  | cons x xs ih =>
    simp only [List.map_cons, updateFirst, hp]
    split
    · simp [hf]
    · rw [ih]; simp [Function.comp_def]

theorem takeFirst_map {α : Type} (p : α → Bool) (g : α → α) (hp : ∀ x, p (g x) = p x) (l : List α) :
    takeFirst p (l.map g) = (takeFirst p l).map (fun found => (g found.1, found.2.map g)) := by
  induction l with
  | nil => rfl
  | cons x xs ih =>
    simp only [List.map_cons, takeFirst, hp]
    split
    · rfl
    · rw [ih]; simp [Function.comp_def]

theorem pushHistory_map (g : EventRecord → EventRecord) (h : List EventRecord) (r : EventRecord) :
    (pushHistory h r).map g = pushHistory (h.map g) (g r) := by
  unfold pushHistory
  rw [List.length_map]
  split <;> simp

theorem foldl_pushHistory_map (g : EventRecord → EventRecord) (rs h : List EventRecord) :
    (rs.foldl pushHistory h).map g = (rs.map g).foldl pushHistory (h.map g) := by
  induction rs generalizing h with
  | nil => rfl
  | cons r rs ih => rw [List.foldl_cons, ih, pushHistory_map, List.map_cons, List.foldl_cons]

theorem Table.shared_nextNumber (t : Table) : t.shared.nextNumber = t.nextNumber := by
  have hheld : t.shared.heldNumber = t.heldNumber := by
    funext n
    simp [Table.heldNumber, Table.shared, EventRecord.replicated, Function.comp_def]
  unfold Table.nextNumber
  rw [hheld]
  simp [Table.shared]

theorem EventRecord.isMember_shared (a : Addr) (r : EventRecord) :
    EventRecord.isMember a r.shared = r.isMember a := rfl

theorem EventRecord.join_shared (w : Nat) (a : Addr) (stamp : Tick) (r : EventRecord) :
    EventRecord.join w a stamp r.shared = (r.join w a stamp).shared := by
  have hm := EventRecord.isMember_shared a r
  unfold EventRecord.join
  rw [hm]
  split <;> rfl

theorem EventRecord.joinLate_shared (a : Addr) (r : EventRecord) :
    EventRecord.joinLate a r.shared = (r.joinLate a).shared := by
  have hm := EventRecord.isMember_shared a r
  unfold EventRecord.joinLate
  rw [hm]
  split <;> rfl

/-- A claim's effect without the local parts of the records it leaves. -/
def ClaimEffect.shared : ClaimEffect → ClaimEffect
  | .stale => .stale
  | .openMatch slots => .openMatch (slots.map EventRecord.shared)
  | .historyMatch history => .historyMatch (history.map EventRecord.shared)
  | .opens => .opens
  | .overflow => .overflow

/-- The five tests read the replicated part alone. -/
theorem Table.claimEffect_shared (w : Nat) (a : Addr) (stamp : Tick) (epoch : Byte) (t : Table) :
    t.shared.claimEffect w a stamp epoch = (t.claimEffect w a stamp epoch).shared := by
  have hopen := updateFirst_map (EventRecord.matchesClaim w t.epoch stamp) (EventRecord.join w a stamp)
    EventRecord.shared (fun _ => rfl) (EventRecord.join_shared w a stamp) t.slots
  have hhist := updateFirst_map (EventRecord.matchesClaim w t.epoch stamp) (EventRecord.joinLate a)
    EventRecord.shared (fun _ => rfl) (EventRecord.joinLate_shared a) t.history
  unfold Table.claimEffect
  simp only [Table.shared, hopen, hhist, List.length_map]
  split
  · rfl
  · cases updateFirst (EventRecord.matchesClaim w t.epoch stamp) (EventRecord.join w a stamp) t.slots with
    | some slots => rfl
    | none =>
      cases updateFirst (EventRecord.matchesClaim w t.epoch stamp) (EventRecord.joinLate a) t.history with
      | some history => rfl
      | none => dsimp only [Option.map_none]; split <;> rfl

theorem Table.claim_shared (a : Addr) (stamp : Tick) (due : Option Tick) (t : Table) (e : ClaimEffect) :
    (t.claim a stamp due e).shared = t.shared.claim a stamp none e.shared := by
  cases e with
  | opens =>
    simp only [Table.claim, ClaimEffect.shared, Table.shared_nextNumber]
    simp [Table.shared, openedRecord, EventRecord.replicated]
  | stale => rfl
  | openMatch slots => rfl
  | historyMatch history => rfl
  | overflow => rfl

theorem Table.closed_shared (q : Nat) (a : Addr) (n : Half) (note : EventRecord → OrderNote) (t : Table) :
    (t.closed q a n note).shared = (t.shared.closed q a n (fun _ => .noOrder)).shared := by
  have htake := takeFirst_map (fun r : EventRecord => r.number == n) EventRecord.shared (fun _ => rfl) t.slots
  unfold Table.closed
  simp only [Table.shared, htake]
  cases takeFirst (fun r : EventRecord => r.number == n) t.slots with
  | none => simp [EventRecord.replicated]
  | some found =>
    dsimp only [Option.map_some]
    simp only [pushHistory_map, List.map_map]
    rfl

theorem Table.epochEnds_shared (a : Addr) (t : Table) :
    (t.epochEnds a).shared = (t.shared.epochEnds a).shared := by
  simp only [Table.epochEnds, Table.shared, foldl_pushHistory_map, List.map_map]
  rfl

/-- What two stations must have alike for the same ordered frames to do the same (R180). -/
structure State.Twin (x y : State) : Prop where
  table : x.table.shared = y.table.shared
  fingerprint : x.fingerprint = y.fingerprint
  w : x.params.w = y.params.w
  q : x.params.q = y.params.q

theorem Table.shared_advance (bytes : List Byte) (t : Table) :
    (t.advance bytes).shared = t.shared.advance bytes := rfl

/-- A CLAIM, CLOSE or EPOCH keeps twins: its table effect reads only what they have alike (R21, R180). -/
theorem State.Twin.applyFrame {x y : State} (a : Addr) (body : Sequenced) (h : x.Twin y) :
    (x.applyFrame a body).Twin (y.applyFrame a body) := by
  obtain ⟨ht, hf, hw, hq⟩ := h
  refine ⟨?_, by simpa using hf, by simpa using hw, by simpa using hq⟩
  rw [State.applyFrame_table, State.applyFrame_table]
  cases body with
  | claim stamp epoch =>
    simp only [Table.claim_shared, ← Table.claimEffect_shared, Table.shared_advance, ht, hw]
  | close n =>
    dsimp only
    rw [Table.closed_shared, Table.closed_shared (note := y.closeNote)]
    simp only [Table.shared_advance, ht, hq]
  | epoch =>
    dsimp only
    rw [Table.epochEnds_shared, Table.epochEnds_shared (t := y.table.advance _)]
    simp only [Table.shared_advance, ht]

/-- A CLEAR keeps twins: the founding table, of the epoch that stood (R39, R180). -/
theorem State.Twin.applyClear {x y : State} (h : x.Twin y) : x.applyClear.Twin y.applyClear := by
  obtain ⟨ht, hf, hw, hq⟩ := h
  refine ⟨?_, by simpa using hf, by simpa using hw, by simpa using hq⟩
  have hepoch := congrArg Table.epoch ht
  simp only [Table.shared] at hepoch
  rw [State.applyClear_table, State.applyClear_table, Table.cleared, Table.cleared, hf, hepoch]

theorem State.Twin.applyOrdered {x y : State} (f : Addr × Option Sequenced) (h : x.Twin y) :
    (x.applyOrdered f).Twin (y.applyOrdered f) := by
  unfold State.applyOrdered
  split
  · exact h.applyFrame _ _
  · exact h.applyClear

theorem State.Twin.applyAll {x y : State} (fs : List (Addr × Option Sequenced)) (h : x.Twin y) :
    (x.applyAll fs).Twin (y.applyAll fs) := by
  unfold State.applyAll
  induction fs generalizing x y with
  | nil => exact h
  | cons f fs ih =>
    rw [List.foldl_cons, List.foldl_cons]
    exact ih (h.applyOrdered f)

/-- Settles O12: twins stay twins frame by frame, and their tables have one count and one digest. -/
theorem sameFramesGiveTheSameTable : Obligations.SameFramesGiveTheSameTable := by
  intro x y fs h ht hf hw hq
  have htwin : (x.applyAll fs).Twin (y.applyAll fs) := State.Twin.applyAll fs ⟨ht, hf, hw, hq⟩
  refine ⟨htwin.table, fun hcount hdigest => ?_⟩
  have hc := congrArg Table.count htwin.table
  have hd := congrArg Table.digest htwin.table
  simp only [Table.shared] at hc hd
  simp [State.agrees, hcount, hdigest, hc, hd]

end Sys2Proof.Machine

/-! The laws of records and tables, kept by every ordered frame (R10 to R20, R23 to R45). -/

namespace Sys2Proof.Machine

/-! ### Lists of records -/

theorem mem_updateFirst {α : Type} {p : α → Bool} {f : α → α} {l m : List α} {x : α}
    (h : updateFirst p f l = some m) (hx : x ∈ m) : x ∈ l ∨ ∃ y ∈ l, p y = true ∧ x = f y := by
  induction l generalizing m with
  | nil => simp [updateFirst] at h
  | cons y ys ih =>
    unfold updateFirst at h
    split at h
    next hp =>
      cases h
      rcases List.mem_cons.mp hx with rfl | hx
      · exact .inr ⟨y, by simp, hp, rfl⟩
      · exact .inl (by simp [hx])
    next =>
      obtain ⟨q, hq, rfl⟩ := Option.map_eq_some_iff.mp h
      rcases List.mem_cons.mp hx with rfl | hx
      · exact .inl (by simp)
      · rcases ih hq hx with hx | ⟨z, hz, hpz, rfl⟩
        · exact .inl (by simp [hx])
        · exact .inr ⟨z, by simp [hz], hpz, rfl⟩

/-- A change that keeps `g` of every element keeps the list of them. -/
theorem map_updateFirst {α β : Type} {p : α → Bool} {f : α → α} {l m : List α} (g : α → β)
    (hg : ∀ x, g (f x) = g x) (h : updateFirst p f l = some m) : m.map g = l.map g := by
  induction l generalizing m with
  | nil => simp [updateFirst] at h
  | cons y ys ih =>
    unfold updateFirst at h
    split at h
    · cases h; simp [hg]
    · obtain ⟨q, hq, rfl⟩ := Option.map_eq_some_iff.mp h
      simp [ih hq]

theorem perm_of_takeFirst {α : Type} {p : α → Bool} {l rest : List α} {r : α}
    (h : takeFirst p l = some (r, rest)) : l.Perm (r :: rest) := by
  induction l generalizing rest with
  | nil => simp [takeFirst] at h
  | cons y ys ih =>
    unfold takeFirst at h
    split at h
    · cases h; exact List.Perm.refl _
    · obtain ⟨⟨a, q⟩, hq, he⟩ := Option.map_eq_some_iff.mp h
      cases he
      exact ((ih hq).cons y).trans (List.Perm.swap _ _ _)

/-- Entering history keeps it within sixteen places (R18). -/
theorem length_pushHistory (h : List EventRecord) (r : EventRecord) (hl : h.length ≤ Config.maxHistory) :
    (pushHistory h r).length ≤ Config.maxHistory := by
  unfold pushHistory
  unfold Config.maxHistory at *
  split <;> simp <;> omega

theorem pushHistory_sublist (h : List EventRecord) (r : EventRecord) :
    (pushHistory h r).Sublist (h ++ [r]) := by
  unfold pushHistory
  split
  · exact (List.drop_sublist 1 h).append (List.Sublist.refl _)
  · exact List.Sublist.refl _

theorem length_foldl_pushHistory (rs h : List EventRecord) (hl : h.length ≤ Config.maxHistory) :
    (rs.foldl pushHistory h).length ≤ Config.maxHistory := by
  induction rs generalizing h with
  | nil => exact hl
  | cons r rs ih => exact ih _ (length_pushHistory h r hl)

theorem foldl_pushHistory_sublist (rs h : List EventRecord) :
    (rs.foldl pushHistory h).Sublist (h ++ rs) := by
  induction rs generalizing h with
  | nil => simp
  | cons r rs ih =>
    have hstep := (ih (pushHistory h r)).trans ((pushHistory_sublist h r).append (List.Sublist.refl rs))
    rwa [List.append_assoc] at hstep

/-! ### The laws of a record -/

theorem length_le_of_nodup_addrs (l : List Addr) (h : l.Nodup) : l.length ≤ Config.maxMembers := by
  have hfin : (l.map BitVec.toFin).Nodup :=
    h.map fun a b hab => BitVec.eq_of_toFin_eq hab
  simpa [Config.maxMembers] using hfin.length_le_card

/-- The offset of a stamp in the window lies in −W..+W (R11, R12). -/
theorem offsetOf_bounds (w : Nat) (stamp t0 : Tick) (hw : w ≤ 127) (h : within w stamp t0 = true) :
    -(w : Int) ≤ (offsetOf w stamp t0).toInt ∧ (offsetOf w stamp t0).toInt ≤ (w : Int) := by
  obtain ⟨hafter, hbefore⟩ := offsetOf_toInt w stamp t0 hw
  simp only [within, Bool.or_eq_true, decide_eq_true_eq] at h
  by_cases hle : (stamp - t0).toNat ≤ w
  · rw [hafter hle]; omega
  · have hpos : 1 ≤ (t0 - stamp).toNat := by
      rw [BitVec.toNat_sub] at hle ⊢
      have := stamp.isLt
      have := t0.isLt
      omega
    have hle' := h.resolve_left hle
    rw [hbefore hpos hle']; omega

theorem addAddr_other (s : AddrSet) (a b : Addr) (h : b ≠ a) : hasAddr (addAddr s a) b = hasAddr s b := by
  have hne : b.toNat ≠ a.toNat := fun he => h (BitVec.eq_of_toNat_eq he)
  have ha := a.isLt
  have hb := b.isLt
  simp only [hasAddr, addAddr, addrBit, BitVec.getLsbD_or, BitVec.getLsbD_shiftLeft]
  have hbit : (1 : AddrSet).getLsbD (b.toNat - a.toNat) = decide (b.toNat - a.toNat = 0) := by
    rw [show (1 : AddrSet) = 1#16 from rfl, BitVec.getLsbD_one]; simp
  rw [hbit]
  by_cases hlt : b.toNat < a.toNat
  · simp [hlt]
  · have : b.toNat - a.toNat ≠ 0 := by omega
    simp [this]

@[simp] theorem hasAddr_zero (a : Addr) : hasAddr 0#16 a = false := by simp [hasAddr]

/-- A claim that joins leaves a lawful open record lawful (R11, R24). -/
theorem EventRecord.OpenLaw.join {w : Nat} {r : EventRecord} (a : Addr) (stamp : Tick) (hw : w ≤ 127)
    (hin : within w stamp r.t0 = true) (h : r.OpenLaw w) : EventRecord.OpenLaw w (r.join w a stamp) := by
  obtain ⟨hstate, hclosing, hnote, hlate, hhead, hlen, hnodup, hoffsets⟩ := h
  unfold EventRecord.join
  split
  next => exact ⟨hstate, hclosing, hnote, hlate, hhead, hlen, hnodup, hoffsets⟩
  next hnew =>
    rw [EventRecord.isMember_iff] at hnew
    have hnodup' : ((r.members ++ [Member.mk a (offsetOf w stamp r.t0)]).map Member.addr).Nodup := by
      rw [List.map_append, List.map_singleton, List.nodup_append]
      refine ⟨hnodup, List.nodup_singleton _, fun x hx y hy hxy => hnew ?_⟩
      have hxa : x = a := hxy.trans (List.mem_singleton.mp hy)
      rwa [← hxa]
    refine ⟨hstate, hclosing, hnote, hlate, ?_, ?_, hnodup', fun m hm => ?_⟩
    · rw [List.head?_append, hhead]; rfl
    · simpa using length_le_of_nodup_addrs _ hnodup'
    · rcases List.mem_append.mp hm with hm | hm
      · exact hoffsets m hm
      · rw [List.mem_singleton.mp hm]
        exact offsetOf_bounds w stamp r.t0 hw hin

/-- A late or repeated claim leaves a lawful closed record lawful: no member comes into the late set
(R14, R25). -/
theorem EventRecord.ClosedLaw.joinLate {w : Nat} {r : EventRecord} (a : Addr) (h : r.ClosedLaw w) :
    EventRecord.ClosedLaw w (r.joinLate a) := by
  obtain ⟨hstate, hclosing, hdue, hmembers, hlate⟩ := h
  unfold EventRecord.joinLate
  split
  next => exact ⟨hstate, hclosing, hdue, hmembers, hlate⟩
  next hnew =>
    rw [EventRecord.isMember_iff] at hnew
    refine ⟨hstate, hclosing, hdue, hmembers, fun m hm => ?_⟩
    have hne : m.addr ≠ a := fun he => hnew (he ▸ List.mem_map_of_mem hm)
    rw [addAddr_other _ _ _ hne]
    exact hlate m hm

theorem openedRecord_openLaw (w : Nat) (n : Half) (epoch : Byte) (stamp : Tick) (a : Addr)
    (due : Option Tick) : (openedRecord n epoch stamp a due).OpenLaw w := by
  refine ⟨rfl, rfl, rfl, rfl, rfl, by simp [openedRecord, Config.maxMembers], by simp [openedRecord],
    fun m hm => ?_⟩
  rw [List.mem_singleton.mp hm]
  exact ⟨by simp, by simp⟩

/-- A CLOSE leaves a lawful open record as a lawful closed one (R34, R35). -/
theorem EventRecord.OpenLaw.closed {w : Nat} {r : EventRecord} (q : Nat) (a : Addr) (note : OrderNote)
    (h : r.OpenLaw w) : EventRecord.ClosedLaw w (r.closed q a note) := by
  obtain ⟨-, -, -, hlate, hmembers⟩ := h
  refine ⟨?_, ?_, rfl, hmembers, fun m _ => ?_⟩
  · unfold EventRecord.closed; dsimp only; split <;> simp
  · unfold EventRecord.closed EventRecord.closingOk closeCause
    by_cases ho : r.opener = a
    · simp [ho]
    · simp [ho, Ne.symm ho]
  · simp [EventRecord.closed, hlate]

/-- An EPOCH leaves a lawful open record as a lawful closed one (R45). -/
theorem EventRecord.OpenLaw.droppedByEpoch {w : Nat} {r : EventRecord} (a : Addr) (h : r.OpenLaw w) :
    EventRecord.ClosedLaw w (r.droppedByEpoch a) := by
  obtain ⟨-, -, -, hlate, hmembers⟩ := h
  exact ⟨by simp [EventRecord.droppedByEpoch], rfl, rfl, hmembers,
    fun m _ => by simp [EventRecord.droppedByEpoch, hlate]⟩

/-! ### The laws of a table -/

theorem Table.Law.of_noRecords {t : Table} (w : Nat) (hs : t.slots = []) (hh : t.history = []) : t.Law w := by
  unfold Table.Law
  rw [hs, hh]
  simp

/-- The laws do not speak of the close dues. -/
theorem Table.Law.withDues {t : Table} {w : Nat} (due : EventRecord → Option Tick) (h : t.Law w) :
    Table.Law w { t with slots := t.slots.map (fun r => { r with due := due r }) } := by
  obtain ⟨hroom, hopen, hpast, hclosed, hnumbers⟩ := h
  refine ⟨by simpa using hroom, fun r hr => ?_, hpast, hclosed, ?_⟩
  · obtain ⟨x, hx, rfl⟩ := List.mem_map.mp hr
    exact hopen x hx
  · simpa [Function.comp_def] using hnumbers

theorem Table.Law.advance {t : Table} {w : Nat} (bytes : List Byte) (h : t.Law w) :
    (t.advance bytes).Law w := h

/-- A claim keeps the laws of the table, test by test (R23 to R27). -/
theorem Table.Law.claim {t : Table} {w : Nat} (a : Addr) (stamp : Tick) (epoch : Byte) (due : Option Tick)
    (hw : w ≤ 127) (h : t.Law w) : (t.claim a stamp due (t.claimEffect w a stamp epoch)).Law w := by
  obtain ⟨hroom, hopen, hpast, hclosed, hnumbers⟩ := h
  unfold Table.claimEffect
  split
  next => exact ⟨hroom, hopen, hpast, hclosed, hnumbers⟩
  next =>
  split
  next slots hslots =>
    have hnums : slots.map EventRecord.number = t.slots.map EventRecord.number :=
      map_updateFirst EventRecord.number (fun r => by unfold EventRecord.join; split <;> rfl) hslots
    refine ⟨by rw [Table.claim, length_updateFirst _ _ _ _ hslots]; exact hroom, fun r hr => ?_, hpast,
      hclosed, by rwa [Table.claim, List.map_append, hnums, ← List.map_append]⟩
    rcases mem_updateFirst hslots hr with hr | ⟨x, hx, hmatch, rfl⟩
    · exact hopen r hr
    · obtain ⟨hlaw, hepoch⟩ := hopen x hx
      simp only [EventRecord.matchesClaim, Bool.and_eq_true] at hmatch
      refine ⟨hlaw.join a stamp hw hmatch.2, ?_⟩
      unfold EventRecord.join; split <;> exact hepoch
  next =>
  split
  next history hhist =>
    have hnums : history.map EventRecord.number = t.history.map EventRecord.number :=
      map_updateFirst EventRecord.number (fun r => by unfold EventRecord.joinLate; split <;> rfl) hhist
    refine ⟨hroom, hopen, by rw [Table.claim, length_updateFirst _ _ _ _ hhist]; exact hpast, fun r hr => ?_,
      by rwa [Table.claim, List.map_append, hnums, ← List.map_append]⟩
    rcases mem_updateFirst hhist hr with hr | ⟨x, hx, -, rfl⟩
    · exact hclosed r hr
    · obtain ⟨hlaw, hnote⟩ := hclosed x hx
      refine ⟨hlaw.joinLate a, ?_⟩
      unfold EventRecord.joinLate; split <;> exact hnote
  next =>
  split
  next hfree =>
    have hnew : t.nextNumber ∉ (t.slots ++ t.history).map EventRecord.number :=
      (t.nextNumber_spec (by
        rw [List.length_append]; unfold Config.maxOpen Config.maxHistory at *; omega)).1
    refine ⟨by simp [Table.claim]; omega, fun r hr => ?_, hpast, hclosed, ?_⟩
    · rcases List.mem_append.mp hr with hr | hr
      · exact hopen r hr
      · rw [List.mem_singleton.mp hr]
        exact ⟨openedRecord_openLaw w _ _ _ _ _, rfl⟩
    · have hperm : ((t.slots ++ [openedRecord t.nextNumber t.epoch stamp a due]) ++ t.history).Perm
          (openedRecord t.nextNumber t.epoch stamp a due :: (t.slots ++ t.history)) := by
        rw [List.append_assoc]; exact List.perm_middle
      rw [Table.claim, (hperm.map EventRecord.number).nodup_iff, List.map_cons, List.nodup_cons]
      exact ⟨hnew, hnumbers⟩
  next => exact ⟨hroom, hopen, hpast, hclosed, hnumbers⟩

/-- A CLOSE keeps the laws of the table (R33 to R37). -/
theorem Table.Law.closed {t : Table} {w : Nat} (q : Nat) (a : Addr) (n : Half)
    (note : EventRecord → OrderNote) (h : t.Law w) : (t.closed q a n note).Law w := by
  obtain ⟨hroom, hopen, hpast, hclosed, hnumbers⟩ := h
  unfold Table.closed
  split
  next => exact ⟨hroom, hopen, hpast, hclosed, hnumbers⟩
  next r rest htake =>
    have hperm := perm_of_takeFirst htake
    have hrest : ∀ x ∈ rest, x ∈ t.slots := fun x hx => hperm.mem_iff.mpr (List.mem_cons_of_mem _ hx)
    have hr : r ∈ t.slots := hperm.mem_iff.mpr List.mem_cons_self
    have hpush := pushHistory_sublist t.history (r.closed q a (note r))
    refine ⟨?_, fun x hx => hopen x (hrest x hx), length_pushHistory _ _ hpast, fun x hx => ?_, ?_⟩
    · have := hperm.length_eq; simp only [List.length_cons] at this; dsimp only; omega
    · rcases List.mem_append.mp (hpush.subset hx) with hx | hx
      · exact hclosed x hx
      · rw [List.mem_singleton.mp hx]
        exact ⟨(hopen r hr).1.closed q a (note r), by simp [EventRecord.closed]⟩
    · have hsub := ((List.Sublist.refl rest).append hpush).map EventRecord.number
      refine hsub.nodup ?_
      have hmoved : ((rest ++ (t.history ++ [r.closed q a (note r)])).map EventRecord.number).Perm
          ((t.slots ++ t.history).map EventRecord.number) := by
        have hnums := (hperm.append_right t.history).map EventRecord.number
        refine List.Perm.trans ?_ hnums.symm
        simp only [List.map_append, List.map_cons, List.map_nil, List.cons_append, ← List.append_assoc]
        exact List.perm_append_singleton _ _
      exact hmoved.nodup_iff.mpr hnumbers

/-- An EPOCH keeps the laws of the table (R45). -/
theorem Table.Law.epochEnds {t : Table} {w : Nat} (a : Addr) (h : t.Law w) : (t.epochEnds a).Law w := by
  obtain ⟨hroom, hopen, hpast, hclosed, hnumbers⟩ := h
  have hsub := foldl_pushHistory_sublist (t.slots.map (EventRecord.droppedByEpoch a)) t.history
  refine ⟨by simp [Table.epochEnds], by simp [Table.epochEnds], length_foldl_pushHistory _ _ hpast,
    fun x hx => ?_, ?_⟩
  · rcases List.mem_append.mp (hsub.subset hx) with hx | hx
    · exact hclosed x hx
    · obtain ⟨r, hr, rfl⟩ := List.mem_map.mp hx
      exact ⟨(hopen r hr).1.droppedByEpoch a, by simp [EventRecord.droppedByEpoch]⟩
  · refine (hsub.map EventRecord.number).nodup ?_
    have hnums : (t.slots.map (EventRecord.droppedByEpoch a)).map EventRecord.number
        = t.slots.map EventRecord.number := by
      rw [List.map_map]; rfl
    rwa [List.map_append, hnums, List.perm_append_comm.nodup_iff, ← List.map_append]

end Sys2Proof.Machine

/-! The table law of a station: what leaves it alone, the entries into step and out of it, the snapshot
received and installed (R29 to R31, R93, R112 to R124). -/

namespace Sys2Proof.Machine

/-! ### Records read from chunks (R117, R177) -/

/-- The state and cause a code gives (R177). -/
theorem readStateByte_cases {b : Byte} {st : RecordState} {cause : Option Cause}
    (h : readStateByte b = some (st, cause)) :
    (st = .opened ∧ cause = none) ∨ (st ≠ .opened ∧ (cause = some .opener ∨ cause = some .standIn))
      ∨ (st = .dropped ∧ cause = some .epoch) := by
  unfold readStateByte at h
  split at h
  · cases h; simp
  split at h
  · cases h; simp
  split at h
  · cases h; simp
  split at h
  · cases h; simp
  split at h
  · cases h; simp
  split at h
  · cases h; simp
  · cases h

/-- A closer read beside a cause fits the cause and the opener (R177). -/
theorem readClosing_cases {opener : Addr} {cause : Option Cause} {closer : Byte} {closing : Option Closing}
    (h : readClosing opener cause closer = some closing) :
    (cause = none ∧ closing = none) ∨ ∃ c, cause = some c.cause ∧ closing = some c
      ∧ (c.cause = .opener → c.closer = opener) ∧ (c.cause = .standIn → c.closer ≠ opener) := by
  unfold readClosing at h
  split at h
  next =>
    split at h <;> cases h
    exact .inl ⟨rfl, rfl⟩
  next a _ =>
    split at h
    next ha => cases h; exact .inr ⟨⟨.opener, a⟩, by simp [ha]⟩
    next => cases h
  next a _ =>
    split at h
    next => cases h
    next ha => cases h; exact .inr ⟨⟨.standIn, a⟩, by simp [ha]⟩
  next a _ => cases h; exact .inr ⟨⟨.epoch, a⟩, by simp⟩
  next => cases h

/-- A record read from a payload has no local part, and closing fields that fit its state (R177). -/
theorem readRecord_fields {payload : List Byte} {r : EventRecord} (h : readRecord payload = some r) :
    r.due = none ∧ r.note = none ∧ (r.state = .opened → r.closing = none)
      ∧ (r.state ≠ .opened → r.closingOk = true) := by
  unfold readRecord at h
  split at h
  next =>
    split at h
    next opener st cause ms _ hstate _ =>
      split at h
      next closing hclosing =>
        split at h
        next =>
          cases h
          refine ⟨rfl, rfl, ?_⟩
          rcases readStateByte_cases hstate with ⟨rfl, rfl⟩ | ⟨hne, hcause⟩ | ⟨rfl, rfl⟩ <;>
            rcases readClosing_cases hclosing with ⟨hc, rfl⟩ | ⟨c, hc, rfl, hown, hother⟩
          · simp
          · cases hc
          · rcases hcause with rfl | rfl <;> cases hc
          · refine ⟨fun he => absurd he hne, fun _ => ?_⟩
            rcases hcause with rfl | rfl
            · have hcause := Option.some.inj hc
              simp [EventRecord.closingOk, ← hcause, hown hcause.symm]
            · have hcause := Option.some.inj hc
              simp [EventRecord.closingOk, ← hcause, hother hcause.symm]
          · cases hc
          · have hcause := Option.some.inj hc
            simp [EventRecord.closingOk, ← hcause]
        next => cases h
      next => cases h
    next => cases h
  next => cases h

theorem membersOk_law {w : Nat} {r : EventRecord} (h : membersOk w r.opener r.members = true) :
    r.MembersLaw w := by
  simp only [membersOk, Bool.and_eq_true, decide_eq_true_eq, beq_iff_eq, List.all_eq_true] at h
  obtain ⟨⟨⟨⟨-, hlen⟩, hhead⟩, hnodup⟩, hoffsets⟩ := h
  exact ⟨hhead, hlen, hnodup, hoffsets⟩

/-- A record chunk that passes R117 holds a lawful record, open or closed by its place, of a number not
received yet. -/
theorem checkRecord_law {w : Nat} {opened : Bool} {epoch : Byte} {taken : List EventRecord}
    {payload : List Byte} {r : EventRecord} (h : checkRecord w opened epoch taken payload = some r) :
    (opened = true → r.OpenLaw w ∧ r.epoch = epoch) ∧ (opened = false → r.ClosedLaw w)
      ∧ r.due = none ∧ ∀ o ∈ taken, o.number ≠ r.number := by
  unfold checkRecord at h
  split at h
  next => cases h
  next x hread =>
    obtain ⟨hdue, hnote, hopen, hclosed⟩ := readRecord_fields hread
    split at h
    next htests =>
      cases h
      simp only [Bool.and_eq_true, Bool.or_eq_true, Bool.not_eq_true', beq_iff_eq, List.all_eq_true,
        bne_iff_ne] at htests
      obtain ⟨⟨⟨⟨⟨hplace, hepoch⟩, hmembers⟩, hlate⟩, hnoLate⟩, hnumber⟩ := htests
      have hlaw := membersOk_law hmembers
      refine ⟨?_, ?_, hdue, hnumber⟩
      · rintro rfl
        have hstate : r.state = .opened := by simpa using hplace
        exact ⟨⟨hstate, hopen hstate, hnote, hnoLate.resolve_left (by simp), hlaw⟩,
          hepoch.resolve_left (by simp)⟩
      · rintro rfl
        have hstate : r.state ≠ .opened := by simpa using hplace
        exact ⟨hstate, hclosed hstate, hdue, hlaw, hlate⟩
    next => cases h

/-- The records are a lawful part of the table the header describes: the open ones first, of its epoch,
then the closed ones, no number twice (R114, R117). -/
structure SnapHeader.Describes (w : Nat) (h : SnapHeader) (records : List EventRecord) : Prop where
  opened : ∀ r ∈ records.take h.openCount, r.OpenLaw w ∧ r.epoch = h.epoch
  closed : ∀ r ∈ records.drop h.openCount, r.ClosedLaw w
  numbers : (records.map EventRecord.number).Nodup
  dues : ∀ r ∈ records, r.due = none

theorem SnapHeader.describes_nil (w : Nat) (h : SnapHeader) : h.Describes w [] := by
  constructor <;> simp

/-- The next record chunk that passes R117 goes on with the description. -/
theorem SnapHeader.Describes.snoc {w : Nat} {h : SnapHeader} {records : List EventRecord}
    {payload : List Byte} {r : EventRecord} (hd : h.Describes w records)
    (hr : checkRecord w (decide (records.length + 1 ≤ h.openCount)) h.epoch records payload = some r) :
    h.Describes w (records ++ [r]) := by
  obtain ⟨hopen, hclosed, hdue, hnumber⟩ := checkRecord_law hr
  refine ⟨fun x hx => ?_, fun x hx => ?_, ?_, fun x hx => ?_⟩
  · rw [List.take_append] at hx
    rcases List.mem_append.mp hx with hx | hx
    · exact hd.opened x hx
    · have hplace : records.length + 1 ≤ h.openCount := by
        by_contra hlt
        rw [show h.openCount - records.length = 0 by omega] at hx
        simp at hx
      rw [List.mem_singleton.mp (List.mem_of_mem_take hx)]
      exact hopen (by simpa using hplace)
  · rw [List.drop_append] at hx
    rcases List.mem_append.mp hx with hx | hx
    · exact hd.closed x hx
    · have hplace : ¬records.length + 1 ≤ h.openCount := by
        intro hle
        rw [List.drop_eq_nil_of_le (by simp; omega)] at hx
        simp at hx
      rw [List.mem_singleton.mp (List.mem_of_mem_drop hx)]
      exact hclosed (by simpa using hplace)
  · rw [List.map_append, List.nodup_append]
    refine ⟨hd.numbers, by simp, fun a ha b hb hab => ?_⟩
    obtain ⟨o, ho, rfl⟩ := List.mem_map.mp ha
    exact hnumber o ho (hab.trans (by simpa using hb))
  · rcases List.mem_append.mp hx with hx | hx
    · exact hd.dues x hx
    · rw [List.mem_singleton.mp hx]; exact hdue

/-- The table of a complete snapshot is lawful (R119). -/
theorem SnapHeader.Describes.installedTable_law {w : Nat} {h : SnapHeader} {records : List EventRecord}
    (hd : h.Describes w records) (hopen : h.openCount ≤ Config.maxOpen)
    (hpast : h.historyCount ≤ Config.maxHistory)
    (hlen : records.length = h.openCount + h.historyCount) : (installedTable h records).Law w := by
  refine ⟨by simp [installedTable]; omega, hd.opened, by simp [installedTable]; omega, fun r hr => ?_, ?_⟩
  · obtain ⟨x, hx, rfl⟩ := List.mem_map.mp hr
    exact ⟨hd.closed x hx, by simp⟩
  · have hnums : ((installedTable h records).slots ++ (installedTable h records).history).map
        EventRecord.number = records.map EventRecord.number := by
      conv_rhs => rw [← List.take_append_drop h.openCount records]
      simp [installedTable, Function.comp_def]
    rw [hnums]
    exact hd.numbers

/-! ### The table law of a station -/

@[simp] theorem RequesterPhase.bufferOk_none (w : Nat) : RequesterPhase.none.bufferOk w = true := rfl
@[simp] theorem RequesterPhase.bufferOk_requesting (w : Nat) (d : Option Tick) :
    (RequesterPhase.requesting d).bufferOk w = true := rfl
@[simp] theorem RequesterPhase.bufferOk_retryWait (w : Nat) (d : Tick) :
    (RequesterPhase.retryWait d).bufferOk w = true := rfl

/-- Every open record has the due the station gives a record (R29 to R31). -/
def State.DuesLaw (s : State) : Prop := ∀ r ∈ s.table.slots, r.due = s.openingDue r.opener r.t0

/-- The table law apart from the receive buffer. -/
structure State.RecordsLaw (s : State) : Prop where
  table : s.table.Law s.params.w.toNat
  dues : s.DuesLaw
  unconfigured : s.stepState = .unconfigured → s.table.slots = [] ∧ s.table.history = []

theorem State.tableLaw_iff (s : State) :
    s.TableLaw ↔ s.RecordsLaw ∧ s.requester.phase.bufferOk s.params.w.toNat = true := by
  constructor
  · rintro ⟨htable, hbuffer, hin, hout, hun⟩
    refine ⟨⟨htable, fun r hr => ?_, hun⟩, hbuffer⟩
    unfold State.openingDue
    split
    next hi => exact hin hi r hr
    next hi => exact hout hi r hr
  · rintro ⟨⟨htable, hdues, hun⟩, hbuffer⟩
    refine ⟨htable, hbuffer, fun hi r hr => ?_, fun hi r hr => ?_, hun⟩
    · rw [hdues r hr, State.openingDue, if_pos hi]
    · rw [hdues r hr, State.openingDue, if_neg hi]

/-- Nothing the table law speaks of changes, but that the receive buffer may go or be timed afresh. -/
structure State.TableKept (s t : State) : Prop where
  table : t.table = s.table
  params : t.params = s.params
  addr : t.addr = s.addr
  stepState : t.stepState = s.stepState
  buffer : ∀ w, s.requester.phase.bufferOk w = true → t.requester.phase.bufferOk w = true

theorem State.TableKept.refl (s : State) : s.TableKept s := ⟨rfl, rfl, rfl, rfl, fun _ h => h⟩

theorem State.TableKept.trans {s t u : State} (h : s.TableKept t) (g : t.TableKept u) : s.TableKept u :=
  ⟨g.table.trans h.table, g.params.trans h.params, g.addr.trans h.addr, g.stepState.trans h.stepState,
    fun w hw => g.buffer w (h.buffer w hw)⟩

theorem State.TableKept.recordsLaw {s t : State} (h : s.TableKept t) (hs : s.RecordsLaw) :
    t.RecordsLaw := by
  obtain ⟨htable, hdues, hun⟩ := hs
  refine ⟨by rwa [h.table, h.params], fun r hr => ?_, by rwa [h.stepState, h.table]⟩
  rw [h.table] at hr
  rw [hdues r hr, State.openingDue, State.openingDue, h.params, h.addr, h.stepState]

theorem State.TableKept.tableLaw {s t : State} (h : s.TableKept t) (hs : s.TableLaw) : t.TableLaw := by
  rw [State.tableLaw_iff] at *
  exact ⟨h.recordsLaw hs.1, by rw [h.params]; exact h.buffer _ hs.2⟩

/-- A station out of step, or in another state without dues, whose table has none. -/
theorem State.tableLaw_of_dueless {s : State} (hl : s.table.Law s.params.w.toNat)
    (hd : ∀ r ∈ s.table.slots, r.due = none) (hi : s.stepState ≠ .inStep)
    (hc : s.stepState ≠ .unconfigured) (hb : s.requester.phase.bufferOk s.params.w.toNat = true) :
    s.TableLaw :=
  ⟨hl, hb, fun h => absurd h hi, fun _ => hd, fun h => absurd h hc⟩

/-- A station without records, whatever its step state. -/
theorem State.tableLaw_of_noRecords {s : State} (hs : s.table.slots = []) (hh : s.table.history = [])
    (hb : s.requester.phase.bufferOk s.params.w.toNat = true) : s.TableLaw :=
  ⟨Table.Law.of_noRecords _ hs hh, hb, by simp [hs], by simp [hs], fun _ => ⟨hs, hh⟩⟩

/-- On entry into IN_STEP every open record has its due (R31). -/
theorem State.computeDues_tableLaw {s : State} (hl : s.table.Law s.params.w.toNat)
    (hi : s.stepState = .inStep) (hb : s.requester.phase.bufferOk s.params.w.toNat = true) :
    s.computeDues.TableLaw := by
  have htable : s.computeDues.table = { s.table with
      slots := s.table.slots.map
        (fun r => { r with due := some (closeDue s.params s.addr r.opener r.t0) }) } := by
    simp [State.computeDues]
  refine ⟨?_, by simpa using hb, fun _ r hr => ?_, fun hne => absurd (by simpa using hi) hne,
    fun hun => by simp [hi] at hun⟩
  · simpa [htable] using hl.withDues _
  · rw [htable] at hr
    obtain ⟨x, -, rfl⟩ := List.mem_map.mp hr
    simp

/-! ### Ordered frames -/

/-- A claim leaves every open record its due, the one it opens taking its own (R26, R29). -/
theorem Table.claim_dues (due : Addr → Tick → Option Tick) (w : Nat) (a : Addr) (stamp : Tick) (epoch : Byte)
    (t : Table) (h : ∀ r ∈ t.slots, r.due = due r.opener r.t0) :
    ∀ r ∈ (t.claim a stamp (due a stamp) (t.claimEffect w a stamp epoch)).slots,
      r.due = due r.opener r.t0 := by
  unfold Table.claimEffect
  split
  next => exact h
  next =>
  split
  next slots hslots =>
    intro r hr
    rcases mem_updateFirst hslots hr with hr | ⟨x, hx, -, rfl⟩
    · exact h r hr
    · have hjoin : ∀ y : EventRecord, (y.join w a stamp).due = y.due
          ∧ (y.join w a stamp).opener = y.opener ∧ (y.join w a stamp).t0 = y.t0 := fun y => by
        unfold EventRecord.join; split <;> exact ⟨rfl, rfl, rfl⟩
      obtain ⟨hdue, hopener, ht0⟩ := hjoin x
      rw [hdue, hopener, ht0]
      exact h x hx
  next =>
  split
  next => exact h
  next =>
  split
  next =>
    intro r hr
    rcases List.mem_append.mp hr with hr | hr
    · exact h r hr
    · rw [List.mem_singleton.mp hr]; rfl
  next => exact h

theorem Table.closed_slots_subset (q : Nat) (a : Addr) (n : Half) (note : EventRecord → OrderNote)
    (t : Table) : ∀ r ∈ (t.closed q a n note).slots, r ∈ t.slots := by
  unfold Table.closed
  split
  next => exact fun r hr => hr
  next htake => exact fun r hr => (perm_of_takeFirst htake).mem_iff.mpr (List.mem_cons_of_mem _ hr)

/-- An ordered frame applied at a configured station keeps the laws of its records (R21). -/
theorem State.RecordsLaw.applyFrame {s : State} (a : Addr) (body : Sequenced) (h : s.RecordsLaw)
    (hw : s.params.w.toNat ≤ 127) (hc : s.stepState ≠ .unconfigured) : (s.applyFrame a body).RecordsLaw := by
  obtain ⟨htable, hdues, -⟩ := h
  have hdue : ∀ opener t0, (s.applyFrame a body).openingDue opener t0 = s.openingDue opener t0 := by
    simp [State.openingDue]
  have hadv := htable.advance (digestedBytes a body)
  refine ⟨?_, fun r hr => ?_, by simp [hc]⟩
  · rw [State.applyFrame_table]
    simp only [State.applyFrame_frame]
    cases body with
    | claim stamp epoch => exact hadv.claim a stamp epoch _ hw
    | close n => exact hadv.closed _ a n _
    | epoch => exact hadv.epochEnds a
  · rw [hdue]
    rw [State.applyFrame_table] at hr
    cases body with
    | claim stamp epoch =>
      exact Table.claim_dues s.openingDue _ a stamp epoch (s.table.advance _) hdues r hr
    | close n => exact hdues r (Table.closed_slots_subset _ a n _ (s.table.advance _) r hr)
    | epoch => simp [Table.epochEnds] at hr

/-- An ordered frame leaves the receive buffer. -/
theorem State.applyFrame_tableLaw {s : State} (a : Addr) (body : Sequenced) (h : s.TableLaw)
    (hw : s.params.w.toNat ≤ 127) (hc : s.stepState ≠ .unconfigured) : (s.applyFrame a body).TableLaw := by
  rw [State.tableLaw_iff] at *
  exact ⟨h.1.applyFrame a body hw hc, by simpa using h.2⟩

theorem State.RecordsLaw.applyHeld {s : State} (fs : List Held) (h : s.RecordsLaw)
    (hw : s.params.w.toNat ≤ 127) (hc : s.stepState ≠ .unconfigured) : (s.applyHeld fs).RecordsLaw := by
  induction fs generalizing s with
  | nil => exact h
  | cons f fs ih => exact ih (h.applyFrame f.sender f.body hw hc) (by simpa using hw) (by simpa using hc)

theorem State.applyClear_tableLaw {s : State} (h : s.TableLaw) : s.applyClear.TableLaw := by
  have ht := State.applyClear_table s
  exact State.tableLaw_of_noRecords (by rw [ht]; rfl) (by rw [ht]; rfl) (by simpa using h.2.1)

/-! ### Entries into step and out of it -/

theorem State.scheduleCloses_kept (s : State) : s.TableKept s.scheduleCloses := by
  constructor <;> simp

theorem State.selfAssert_tableLaw {s : State} (h : s.table.Law s.params.w.toNat) : s.selfAssert.TableLaw :=
  State.computeDues_tableLaw (by simpa using h) rfl rfl

@[simp] theorem State.nextAttempt_requester (s : State) : s.nextAttempt.requester =
    { s.requester with phase := .requesting none, attempt := satAdd8 s.requester.attempt 1 } := by
  simp [State.nextAttempt]

theorem State.nextAttempt_kept (s : State) : s.TableKept s.nextAttempt := by
  constructor <;> simp

/-- A failure leaves the table, or brings the station back into step with it (R122 to R124). -/
theorem State.fail_tableLaw {s : State} (k : FailKind) (h : s.RecordsLaw) : (s.fail k).TableLaw := by
  have hrise : ∀ n, State.RecordsLaw { s.rise .resyncsFailed 1 with
      requester := { s.requester with phase := .requesting none, unanswered := n, hold := [] } } :=
    fun n => ⟨h.table, h.dues, h.unconfigured⟩
  unfold State.fail
  dsimp only
  split
  · exact (State.tableLaw_iff _).mpr ⟨(State.nextAttempt_kept _).recordsLaw (hrise _), by simp⟩
  · split
    · exact State.selfAssert_tableLaw h.table
    · exact (State.tableLaw_iff _).mpr ⟨⟨h.table, h.dues, h.unconfigured⟩, rfl⟩

/-- A lawful table kept without its dues, outside IN_STEP (R29). -/
theorem State.tableLaw_of_dropDues {s : State} {t : Table} (hl : t.Law s.params.w.toNat)
    (ht : s.table = { t with slots := t.slots.map (fun r => { r with due := none }) })
    (hi : s.stepState ≠ .inStep) (hc : s.stepState ≠ .unconfigured)
    (hb : s.requester.phase.bufferOk s.params.w.toNat = true) : s.TableLaw := by
  refine State.tableLaw_of_dueless (ht ▸ hl.withDues _) (fun r hr => ?_) hi hc hb
  rw [ht] at hr
  obtain ⟨x, -, rfl⟩ := List.mem_map.mp hr
  rfl

/-- The contexts and the table at the entry into OUT_OF_STEP (R93). -/
theorem State.enterOutOfStep_contexts (s : State) :
    s.enterOutOfStep.requester = { phase := .requesting none, attempt := 1, unanswered := 0, hold := [] }
      ∧ s.enterOutOfStep.responder = Responder.idle
      ∧ s.enterOutOfStep.table = { s.table with
          slots := s.table.slots.map (fun r => { r with due := none }) } := by
  simp [State.enterOutOfStep, State.openRequester, State.abandonResponder, State.dropDues]

theorem State.enterOutOfStep_tableLaw {s : State} (h : s.table.Law s.params.w.toNat) :
    s.enterOutOfStep.TableLaw := by
  obtain ⟨hrequester, -, htable⟩ := s.enterOutOfStep_contexts
  obtain ⟨-, -, -, -, -, hstep, -⟩ := s.enterOutOfStep_facts
  exact State.tableLaw_of_dropDues (by simpa using h) htable (by simp [hstep]) (by simp [hstep])
    (by simp [hrequester])

/-- MUTE keeps the table, without dues (R60). -/
theorem State.enterMute_tableLaw {s : State} (h : s.table.Law s.params.w.toNat) : s.enterMute.TableLaw :=
  State.tableLaw_of_dropDues (t := s.table) (by simpa using h) (by simp [State.enterMute, State.dropDues])
    (by simp [State.enterMute]) (by simp [State.enterMute]) rfl

theorem State.found_tableLaw {s : State} (h : s.TableLaw) : s.found.TableLaw := by
  have hdues : State.TableLaw (State.computeDues { s with
      stepState := .inStep, listeningEnd := none, lastSent := s.tick,
      table := Table.founding s.fingerprint }) :=
    State.computeDues_tableLaw (Table.Law.of_noRecords _ rfl rfl) rfl h.2.1
  unfold State.found
  dsimp only
  split
  · exact hdues
  · exact State.TableKept.tableLaw (by constructor <;> simp) hdues

theorem State.clearOutOfStep_tableLaw (tick : Tick) (epoch : Byte) (s : State) :
    (s.clearOutOfStep tick epoch).TableLaw := by
  refine State.computeDues_tableLaw (Table.Law.of_noRecords _ ?_ ?_) rfl ?_
  · simp [State.applyClear_table, Table.cleared, Table.founding, Table.reset]
  · simp [State.applyClear_table, Table.cleared, Table.founding, Table.reset]
  · simp [Requester.idle, State.setTick, RequesterPhase.rebase, RequesterPhase.bufferOk]

/-! ### The requester (R112 to R121) -/

/-- The install of a complete lawful snapshot, or its failure at a gap (R118 to R121). -/
theorem State.install_tableLaw {s : State} {h : SnapHeader} {records : List EventRecord}
    (hs : s.RecordsLaw) (hw : s.params.w.toNat ≤ 127) (ho : s.stepState = .outOfStep)
    (hd : h.Describes s.params.w.toNat records) (hopen : h.openCount ≤ Config.maxOpen)
    (hpast : h.historyCount ≤ Config.maxHistory)
    (hlen : records.length = h.openCount + h.historyCount) : (s.install h records).TableLaw := by
  unfold State.install
  split
  next => exact State.fail_tableLaw _ hs
  next marked _ =>
    have hinstalled : State.RecordsLaw { s with table := installedTable h records } := by
      refine ⟨hd.installedTable_law hopen hpast hlen, fun r hr => ?_, by simp [ho]⟩
      rw [hd.dues r (List.mem_of_mem_take hr)]
      simp [State.openingDue, ho]
    have happlied := hinstalled.applyHeld marked hw (by simp [ho])
    exact State.computeDues_tableLaw happlied.table rfl rfl

theorem headerOk_iff (n total : Nat) (h : SnapHeader) : headerOk n total h = true ↔
    n = 20 ∧ h.openCount ≤ Config.maxOpen ∧ h.historyCount ≤ Config.maxHistory
      ∧ total = 1 + h.openCount + h.historyCount := by
  simp [headerOk, and_assoc]

/-- The header of a snapshot: taken, installed at once, refused, or another array's (R113, R114). -/
theorem State.examineHeader_tableLaw {s : State} (a : Addr) (n : Nat) (b : StateBody) (hs : s.TableLaw)
    (hw : s.params.w.toNat ≤ 127) (ho : s.stepState = .outOfStep) : (s.examineHeader a n b).TableLaw := by
  have hrecords := ((State.tableLaw_iff s).mp hs).1
  unfold State.examineHeader
  split
  next =>
    exact State.tableLaw_of_dueless (by simpa using hs.1) (by simpa using hs.2.2.2.1 (by simp [ho]))
      (by simp [State.enterConflict]) (by simp [State.enterConflict]) rfl
  next =>
  split
  next => exact State.fail_tableLaw _ hrecords
  next h tick _ =>
  split
  next hok =>
    obtain ⟨-, hopen, hpast, htotal⟩ := (headerOk_iff _ _ _).mp hok
    have htaken : (s.takeHeader a b.total.toNat h tick).RecordsLaw := by
      obtain ⟨hl, hdues, hun⟩ := hrecords
      refine ⟨by simpa using hl, fun r hr => ?_, by simpa using hun⟩
      simpa [State.openingDue] using hdues r (by simpa using hr)
    dsimp only
    split
    next hone =>
      exact State.install_tableLaw htaken (by simpa using hw) (by simpa using ho) (h.describes_nil _)
        hopen hpast (by simp; omega)
    next hmore =>
      refine (State.tableLaw_iff _).mpr ⟨htaken, ?_⟩
      have hd := h.describes_nil s.params.w.toNat
      refine decide_eq_true (p := Receiving.Law _ _) ⟨hopen, hpast, htotal, rfl, ?_, hd.opened, hd.closed,
        hd.numbers, hd.dues⟩
      dsimp only; omega
  next => exact State.fail_tableLaw _ hrecords

theorem Receiving.Law.describes {w : Nat} {c : Receiving} (h : c.Law w) : c.header.Describes w c.records :=
  let ⟨_, _, _, _, _, hopen, hclosed, hnumbers, hdues⟩ := h
  ⟨hopen, hclosed, hnumbers, hdues⟩

/-- A record chunk: taken, the last one of a snapshot that is installed, or refused (R116, R117). -/
theorem State.takeChunk_tableLaw {s : State} {c : Receiving} (n : Nat) (b : StateBody) (hs : s.TableLaw)
    (hw : s.params.w.toNat ≤ 127) (ho : s.stepState = .outOfStep) (hc : c.Law s.params.w.toNat) :
    (s.takeChunk c n b).TableLaw := by
  have hrecords := ((State.tableLaw_iff s).mp hs).1
  have hd := hc.describes
  obtain ⟨hopen, hpast, htotal, hexpected, hmore, -⟩ := hc
  have hfail := State.fail_tableLaw .badChunk hrecords
  unfold State.takeChunk
  split
  next => exact hfail
  next =>
  split
  next => exact hfail
  next =>
  split
  next => exact hfail
  next r hr =>
  split
  next => exact hfail
  next =>
    rw [hexpected] at hr
    have hd' := hd.snoc hr
    dsimp only
    split
    next hlast =>
      exact State.install_tableLaw hrecords hw ho hd' hopen hpast (by simp; omega)
    next hnext =>
      refine (State.tableLaw_iff _).mpr ⟨⟨hrecords.table, hrecords.dues, hrecords.unconfigured⟩, ?_⟩
      refine decide_eq_true (p := Receiving.Law _ _) ⟨hopen, hpast, htotal, by simp [hexpected], ?_,
        hd'.opened, hd'.closed, hd'.numbers, hd'.dues⟩
      dsimp only; omega

theorem State.requesterState_tableLaw {s : State} (a : Addr) (n : Nat) (b : StateBody) (hs : s.TableLaw)
    (hw : s.params.w.toNat ≤ 127) (ho : s.stepState = .outOfStep) : (s.requesterState a n b).TableLaw := by
  have hbuffer := hs.2.1
  unfold State.requesterState
  split
  next => exact hs
  next =>
  split
  next =>
    split
    · exact State.examineHeader_tableLaw a n b hs hw ho
    · exact hs
  next c hphase =>
    split
    · rw [hphase] at hbuffer
      exact State.takeChunk_tableLaw n b hs hw ho (of_decide_eq_true hbuffer)
    · exact hs
  next => exact hs

end Sys2Proof.Machine

/-! The table law through every command (O4). -/

namespace Sys2Proof.Machine

/-! ### Acceptances -/

@[simp] theorem RequesterPhase.bufferOk_rebase (w : Nat) (old new : Tick) (p : RequesterPhase) :
    (p.rebase old new).bufferOk w = p.bufferOk w := by
  cases p <;> rfl

theorem State.epochArrival_kept (s : State) : s.TableKept s.epochArrival := by
  refine ⟨by simp, by simp, by simp, by simp, fun w hw => ?_⟩
  unfold State.epochArrival
  split
  · simpa [State.setTick] using hw
  · exact hw

theorem State.arrive_kept (h : Header) (carried : Option Half) (epoch : Bool) (s : State) :
    s.TableKept (s.arrive h carried epoch) := by
  have hclash : s.TableKept (s.receiverDone.setFlagIf (h.sender == s.addr) .addressClash) := by
    constructor <;> simp
  unfold State.arrive
  cases epoch with
  | false => exact hclash.trans (by constructor <;> simp)
  | true => exact (hclash.trans (State.epochArrival_kept _)).trans (by constructor <;> simp)

/-- A vote leaves the table, or takes the station out of step with it (R90, R91, R93, R96). -/
theorem State.vote_tableLaw {s : State} (h : Header) (hs : s.TableLaw) : (s.vote h).TableLaw := by
  have hcount : s.TableKept (s.countDisagreement h.sender) := by constructor <;> simp
  unfold State.vote
  split
  next =>
    split
    next => exact State.TableKept.tableLaw (by constructor <;> simp) hs
    next =>
      unfold State.voteDisagree
      dsimp only
      split
      next =>
        split
        next => exact State.enterOutOfStep_tableLaw (by simpa using hs.1)
        next => exact State.TableKept.tableLaw (hcount.trans (by constructor <;> simp)) hs
      next => exact hcount.tableLaw hs
  next => exact hs

theorem State.accept_tableLaw {s : State} (h : Header) (carried : Option Half) (epoch : Bool)
    (hs : s.TableLaw) : (s.accept h carried epoch).TableLaw := by
  have harrived := (State.arrive_kept h carried epoch s).tableLaw hs
  unfold State.accept State.monitor
  split
  next =>
    split
    next => exact State.enterOutOfStep_tableLaw harrived.1
    next => exact harrived
  next => exact State.vote_tableLaw h harrived

/-- An UNCONFIGURED station stays so at an acceptance: it neither listens nor votes. -/
theorem State.accept_unconfigured {s : State} (h : Header) (carried : Option Half) (epoch : Bool)
    (hs : s.stepState = .unconfigured) : (s.accept h carried epoch).stepState = .unconfigured := by
  unfold State.accept State.monitor State.vote State.votes State.applies
  simp [hs]

/-- The window fits a signed byte at a configured station (R137). -/
def State.WindowOk (s : State) : Prop := s.stepState ≠ .unconfigured → s.params.w.toNat ≤ 127

theorem State.PhaseLaw.windowOk {s : State} (h : s.PhaseLaw) : s.WindowOk := by
  intro hc
  have hrange := h.2.1 (by simp [State.configured, hc])
  simp only [Params.inRange, Bool.and_eq_true, decide_eq_true_eq] at hrange
  omega

theorem State.WindowOk.accept {s : State} (h : Header) (carried : Option Half) (epoch : Bool)
    (hw : s.WindowOk) : (s.accept h carried epoch).WindowOk := by
  intro hc
  simpa using hw fun hun => hc (State.accept_unconfigured h carried epoch hun)

theorem State.holdFrame_tableLaw {s : State} (a : Addr) (body : Sequenced) (n : Half) (hs : s.TableLaw) :
    (s.holdFrame a body n).TableLaw := by
  unfold State.holdFrame
  split
  next =>
    split
    next => exact hs
    next => exact State.fail_tableLaw _ ((State.tableLaw_iff s).mp hs).1
  next => exact hs

theorem State.ownSequenced_tableLaw {s : State} (h : Header) (body : Sequenced) (hs : s.TableLaw)
    (hw : s.WindowOk) : (s.ownSequenced h body).TableLaw := by
  unfold State.ownSequenced
  split
  next hi => exact State.applyFrame_tableLaw _ _ hs (hw (by simp [hi])) (by simp [hi])
  next hm => exact State.applyFrame_tableLaw _ _ hs (hw (by simp [hm])) (by simp [hm])
  next => exact State.holdFrame_tableLaw _ _ _ hs
  all_goals exact hs

theorem State.ownClear_tableLaw {s : State} (tick : Tick) (epoch : Byte) (hs : s.TableLaw) :
    (s.ownClear tick epoch).TableLaw := by
  unfold State.ownClear
  split
  next => exact State.applyClear_tableLaw hs
  next => exact State.applyClear_tableLaw hs
  next => exact State.clearOutOfStep_tableLaw tick epoch s
  all_goals exact hs

theorem State.responderState_kept (b : StateBody) (s : State) : s.TableKept (s.responderState b) := by
  constructor <;> simp

theorem State.ownState_tableLaw {s : State} (h : Header) (body : List Byte) (hs : s.TableLaw)
    (hw : s.WindowOk) : (s.ownState h body).TableLaw := by
  unfold State.ownState
  split
  next => exact hs
  next b _ =>
    split
    next ho => exact State.requesterState_tableLaw _ _ b hs (hw (by simp [ho])) ho
    next => exact (State.responderState_kept b s).tableLaw hs
    all_goals exact hs

theorem State.ownStateReq_kept (h : Header) (s : State) : s.TableKept (s.ownStateReq h) := by
  constructor <;> simp

/-! ### Completions, and attempts that fail -/

theorem State.completed_kept (s : State) : s.TableKept s.completed := by
  constructor <;> simp

theorem State.applyOwn_tableLaw {s : State} (body : Sequenced) (hs : s.TableLaw) (hw : s.WindowOk) :
    (s.applyOwn body).TableLaw := by
  unfold State.applyOwn
  split
  next ha =>
    have hc : s.stepState ≠ .unconfigured := fun hun => by simp [State.applies, hun] at ha
    exact State.applyFrame_tableLaw _ body hs (hw hc) hc
  next => exact hs

theorem State.WindowOk.kept {s t : State} (h : s.TableKept t) (hw : s.WindowOk) : t.WindowOk := by
  unfold State.WindowOk
  rw [h.stepState, h.params]
  exact hw

/-- The completion of an own ordered frame, `f` being what comes before its application. -/
theorem State.completeSequenced_tableLaw {s : State} (k : Kind) (f : State → State)
    (hf : ∀ x : State, x.TableKept (f x)) (hs : s.TableLaw) (hw : s.WindowOk) :
    (s.completeSequenced k f).TableLaw := by
  have hdone := s.completed_kept.trans (hf s.completed)
  unfold State.completeSequenced
  split
  next =>
    split
    next => exact State.applyOwn_tableLaw _ (hdone.tableLaw hs) (hw.kept hdone)
    next => exact hs
  next => exact hs

theorem State.requestSent_kept (s : State) : s.TableKept s.requestSent := by
  refine ⟨by simp, by simp, by simp, by simp, fun w hw => ?_⟩
  unfold State.requestSent
  split
  · rfl
  · exact hw

theorem State.returnEntry_kept (e : Entry) (f : Entry → Entry) (s : State) :
    s.TableKept (s.returnEntry e f) := by
  constructor <;> simp

theorem State.loseArbitration_kept (e : Entry) (s : State) : s.TableKept (s.loseArbitration e) := by
  constructor <;> simp

theorem State.afterDiscard_kept (k : Kind) (s : State) : s.TableKept (s.afterDiscard k) := by
  constructor <;> simp

theorem State.driveBreak_kept (s : State) : s.TableKept s.driveBreak := by
  constructor <;> simp

/-- A discard leaves the table, or takes the station into MUTE with it (R59, R60). -/
theorem State.discard_tableLaw {s : State} (e : Entry) (hs : s.TableLaw) : (s.discard e).TableLaw := by
  have hcounted : s.TableKept { s.rise .txDiscards 1 with
      tx := { s.tx.dropSending with discards := s.tx.discards + 1 } } := by
    constructor <;> simp
  unfold State.discard
  dsimp only
  split
  next => exact State.enterMute_tableLaw hs.1
  next => exact (hcounted.trans (State.afterDiscard_kept _ _)).tableLaw hs

theorem State.bitError_tableLaw {s : State} (e : Entry) (hs : s.TableLaw) : (s.bitError e).TableLaw := by
  have hbroken : s.TableKept (s.driveBreak.rise .txAborts 1) :=
    s.driveBreak_kept.trans (by constructor <;> simp)
  unfold State.bitError
  dsimp only
  split
  next => exact State.discard_tableLaw e (hbroken.tableLaw hs)
  next => exact (hbroken.trans (State.returnEntry_kept _ _ _)).tableLaw hs

/-! ### Ticks -/

theorem State.testRequest_tableLaw {s : State} (hs : s.TableLaw) : s.testRequest.TableLaw := by
  have hfail := State.fail_tableLaw .unanswered ((State.tableLaw_iff s).mp hs).1
  unfold State.testRequest
  split
  · split
    · exact hfail
    · exact hs
  · exact hs

theorem State.testChunk_tableLaw {s : State} (hs : s.TableLaw) : s.testChunk.TableLaw := by
  have hfail := State.fail_tableLaw .chunkTimeout ((State.tableLaw_iff s).mp hs).1
  unfold State.testChunk
  split
  · split
    · exact hfail
    · exact hs
  · exact hs

theorem State.testRetry_kept (s : State) : s.TableKept s.testRetry := by
  unfold State.testRetry
  split
  · split
    · exact State.nextAttempt_kept s
    · exact State.TableKept.refl s
  · exact State.TableKept.refl s

theorem State.testListening_tableLaw {s : State} (hs : s.TableLaw) : s.testListening.TableLaw := by
  unfold State.testListening
  split
  · exact State.found_tableLaw hs
  · exact hs

theorem State.offerTick_tableLaw {s : State} (hs : s.TableLaw) : s.offerTick.TableLaw := by
  have hmonitor : s.TableKept s.testExpiry.scheduleCloses.offerPresence.markAbsent := by
    constructor <;> simp
  have hdelay : ∀ x : State, x.TableKept x.testDelay := fun x => by constructor <;> simp
  unfold State.offerTick
  refine State.testListening_tableLaw ((hdelay _).tableLaw ((State.testRetry_kept _).tableLaw ?_))
  exact State.testChunk_tableLaw (State.testRequest_tableLaw (hmonitor.tableLaw hs))

/-! ### The board -/

/-- A command taken or not keeps what its effect keeps. -/
theorem State.taken_kept (c : Instr) (f : State → State) (s : State) (hf : s.TableKept (f s)) :
    s.TableKept (s.taken c f) := by
  unfold State.taken
  split
  · exact hf
  · exact State.TableKept.refl s

theorem State.respond_kept (r : Result) (data : List Byte) (c : Commit) (s : State) :
    s.TableKept (s.respond r data c) := by
  constructor <;> simp

theorem State.setArmed_kept (a : Bool) (s : State) : s.TableKept (s.setArmed a) := by
  unfold State.setArmed
  (repeat' split) <;> constructor <;> simp

theorem State.takeOrder_kept (s : State) : s.TableKept s.takeOrder := by
  unfold State.takeOrder
  split <;> constructor <;> simp

theorem State.stageEvent_kept (n : Half) (s : State) : s.TableKept (s.stageEvent n) := by
  unfold State.stageEvent
  split <;> constructor <;> simp

theorem State.readStage_kept (offset length : Byte) (s : State) :
    s.TableKept (s.readStage offset length) := by
  unfold State.readStage
  (repeat' split) <;> constructor <;> simp

theorem State.readCounters_kept (first n : Byte) (s : State) : s.TableKept (s.readCounters first n) := by
  unfold State.readCounters
  split <;> constructor <;> simp

theorem State.askFrame_kept (b : Body) (s : State) : s.TableKept (s.askFrame b) := by
  unfold State.askFrame
  (repeat' split) <;> constructor <;> simp

theorem State.askRestart_kept (s : State) : s.TableKept s.askRestart := by
  unfold State.askRestart
  split <;> constructor <;> simp

theorem State.trail_kept (s : State) : s.TableKept s.trail := by
  constructor <;> simp

theorem State.restart_tableLaw (s : State) : s.restart.trail.TableLaw :=
  s.restart.trail_kept.tableLaw (State.tableLaw_of_noRecords rfl rfl rfl)

/-- An accepted SET_CONFIG finds no record and no snapshot being received (R8, R138). -/
theorem State.configure_tableLaw {s : State} (p : Params) (hp : s.PhaseLaw) (hs : s.TableLaw)
    (hun : s.stepState = .unconfigured) : (s.configure p).TableLaw := by
  obtain ⟨hslots, hhistory⟩ := hs.2.2.2.2 hun
  have hphase : s.requester.phase = .none := by
    by_contra hne
    have := hp.2.2.2.2.1.mp hne
    rw [hun] at this; cases this
  exact State.tableLaw_of_noRecords hslots hhistory (by simp [hphase])

/-! ### Every command -/

/-- What holds of the one branch and of the state as it is holds of either. -/
theorem State.TableLaw.ite {c : Prop} [Decidable c] {s t : State} (ht : c → t.TableLaw) (hs : s.TableLaw) :
    (if c then t else s).TableLaw := by
  split
  · exact ht ‹c›
  · exact hs

theorem State.unlessReset_tableLaw {s : State} (f : State → State) (hf : (f s).TableLaw) (hs : s.TableLaw) :
    (s.unlessReset f).TableLaw := by
  unfold State.unlessReset
  split
  · exact hs
  · exact hf

/-- Every command keeps the table law of a station that meets the law of its contexts. -/
theorem exec_tableLaw (c : Instr) {s t : State} (hp : s.PhaseLaw) (hs : s.TableLaw) (h : exec c s = .next t) :
    t.TableLaw := by
  have hw := hp.windowOk
  have htaken : ∀ f : State → State, s.TableKept (f s) → (s.taken c f).TableLaw :=
    fun f hf => (State.taken_kept c f s hf).tableLaw hs
  cases c with
  | pinReset => cases h; exact State.tableLaw_of_noRecords rfl rfl rfl
  | resetRelease addr rate =>
    cases h
    refine State.TableLaw.ite (fun hr => ?_) hs
    obtain ⟨hslots, hhistory⟩ := hs.2.2.2.2 (hp.1 hr)
    exact State.tableLaw_of_noRecords hslots hhistory hs.2.1
  | refArrival =>
    cases h
    exact State.unlessReset_tableLaw _ (State.TableLaw.ite (fun _ => State.offerTick_tableLaw hs) hs) hs
  | trigEdge =>
    cases h
    exact State.unlessReset_tableLaw _ (State.TableKept.tableLaw (by constructor <;> simp) hs) hs
  | transactionOpen shifted => cases h; exact State.TableKept.tableLaw (by constructor <;> simp) hs
  | transactionEnd =>
    cases h
    split
    · exact hs
    · unfold State.endTransaction
      split <;> exact hs
  | statusByteEnd =>
    cases h; exact State.TableLaw.ite (fun _ => State.TableKept.tableLaw (by constructor <;> simp) hs) hs
  | setConfig w g q h p v =>
    cases h
    unfold State.taken
    refine State.TableLaw.ite (fun _ => ?_) hs
    dsimp only
    split
    · exact (State.respond_kept _ _ _ s).tableLaw hs
    next hc =>
      have hun : s.stepState = .unconfigured := by simpa [State.configured] using hc
      split
      · exact (State.respond_kept _ _ _ _).tableLaw (State.configure_tableLaw _ hp hs hun)
      · exact (State.respond_kept _ _ _ s).tableLaw hs
  | arm => cases h; exact htaken _ (State.setArmed_kept _ s)
  | disarm => cases h; exact htaken _ (State.setArmed_kept _ s)
  | takeOrder => cases h; exact htaken _ s.takeOrder_kept
  | takeOrderCommit =>
    cases h
    exact State.TableLaw.ite (fun _ => (State.trail_kept { s with orders := _ }).tableLaw hs) hs
  | listEvents => cases h; exact htaken _ (State.respond_kept _ _ _ s)
  | stageEvent number => cases h; exact htaken _ (State.stageEvent_kept _ s)
  | readStage offset length => cases h; exact htaken _ (State.readStage_kept _ _ s)
  | readStatus => cases h; exact htaken _ (State.respond_kept _ _ _ s)
  | readCounters first n => cases h; exact htaken _ (State.readCounters_kept _ _ s)
  | readRoster => cases h; exact htaken _ (State.respond_kept _ _ _ s)
  | ackFlags mask => cases h; exact htaken _ (State.respond_kept _ _ _ s)
  | ackFlagsCommit =>
    cases h
    exact State.TableLaw.ite (fun _ => State.TableKept.tableLaw (by constructor <;> simp) hs) hs
  | askClear => cases h; exact htaken _ (State.askFrame_kept _ s)
  | askEpoch => cases h; exact htaken _ (State.askFrame_kept _ s)
  | restartStation => cases h; exact htaken _ s.askRestart_kept
  | restartStationCommit =>
    cases h
    refine State.TableLaw.ite (fun _ => ?_) hs
    split
    · exact s.trail_kept.tableLaw hs
    · exact s.restart_tableLaw
  | unknownCommand code =>
    cases h
    split
    · exact hs
    · exact htaken _ (State.respond_kept _ _ _ s)
  | transmissionStart recessive => cases h; exact State.TableKept.tableLaw (by constructor <;> simp) hs
  | arbitrationLoss =>
    cases h
    refine State.TableLaw.ite (fun _ => ?_) hs
    split
    · exact (State.loseArbitration_kept _ s).tableLaw hs
    · exact hs
  | bitError =>
    cases h
    refine State.TableLaw.ite (fun _ => ?_) hs
    split
    · exact State.bitError_tableLaw _ hs
    · exact hs
  | deferredOfferAdmitted => cases h; exact State.unlessReset_tableLaw _ hs hs
  | ownClaimCompletes =>
    cases h
    exact State.completeSequenced_tableLaw _ _ (fun x => by constructor <;> simp) hs hw
  | ownCloseCompletes =>
    cases h
    exact State.completeSequenced_tableLaw _ _ State.TableKept.refl hs hw
  | ownEpochCompletes =>
    cases h
    exact State.completeSequenced_tableLaw _ _ State.epochArrival_kept hs hw
  | ownClearCompletes =>
    cases h
    have hdone := s.completed_kept.tableLaw hs
    refine State.TableLaw.ite (fun _ => ?_) hs
    exact State.TableLaw.ite (fun _ => State.applyClear_tableLaw hdone) hdone
  | ownStateCompletes =>
    cases h
    refine State.TableLaw.ite (fun _ => ?_) hs
    exact (s.completed_kept.trans (by constructor <;> simp)).tableLaw hs
  | ownStateReqCompletes =>
    cases h
    exact State.TableLaw.ite (fun _ => (s.completed_kept.trans (State.requestSent_kept _)).tableLaw hs) hs
  | ownPresenceCompletes =>
    cases h
    exact State.TableLaw.ite (fun _ => s.completed_kept.tableLaw hs) hs
  | frameDiscarded fault =>
    cases h
    exact State.TableLaw.ite (fun _ => State.TableKept.tableLaw (by constructor <;> simp) hs) hs
  | claimAccepted h' stamp epoch =>
    cases h
    exact State.TableLaw.ite
      (fun _ => State.ownSequenced_tableLaw _ _ (State.accept_tableLaw _ _ _ hs) (hw.accept _ _ _)) hs
  | closeAccepted h' number =>
    cases h
    exact State.TableLaw.ite
      (fun _ => State.ownSequenced_tableLaw _ _ (State.accept_tableLaw _ _ _ hs) (hw.accept _ _ _)) hs
  | clearAccepted h' tick epoch =>
    cases h
    exact State.TableLaw.ite (fun _ => State.ownClear_tableLaw _ _ (State.accept_tableLaw _ _ _ hs)) hs
  | epochAccepted h' =>
    cases h
    exact State.TableLaw.ite
      (fun _ => State.ownSequenced_tableLaw _ _ (State.accept_tableLaw _ _ _ hs) (hw.accept _ _ _)) hs
  | stateAccepted h' body =>
    cases h
    refine State.TableLaw.ite (fun _ => ?_) hs
    split
    · exact State.ownState_tableLaw _ _ (State.accept_tableLaw _ _ _ hs) (hw.accept _ _ _)
    · exact State.TableKept.tableLaw (by constructor <;> simp) hs
  | stateReqAccepted h' fingerprint attempt =>
    cases h
    exact State.TableLaw.ite
      (fun _ => (State.ownStateReq_kept _ _).tableLaw (State.accept_tableLaw _ _ _ hs)) hs
  | presenceAccepted h' fingerprint =>
    cases h
    exact State.TableLaw.ite (fun _ => State.accept_tableLaw _ _ _ hs) hs
  | closeDueReached => cases h; exact State.unlessReset_tableLaw _ (s.scheduleCloses_kept.tableLaw hs) hs
  | claimExpiry =>
    cases h; exact State.unlessReset_tableLaw _ (State.TableKept.tableLaw (by constructor <;> simp) hs) hs
  | presenceDue =>
    cases h; exact State.unlessReset_tableLaw _ (State.TableKept.tableLaw (by constructor <;> simp) hs) hs
  | absence =>
    cases h; exact State.unlessReset_tableLaw _ (State.TableKept.tableLaw (by constructor <;> simp) hs) hs
  | requestDeadline => cases h; exact State.unlessReset_tableLaw _ (State.testRequest_tableLaw hs) hs
  | chunkDeadline => cases h; exact State.unlessReset_tableLaw _ (State.testChunk_tableLaw hs) hs
  | retryTick => cases h; exact State.unlessReset_tableLaw _ (s.testRetry_kept.tableLaw hs) hs
  | answerDelayEnd =>
    cases h; exact State.unlessReset_tableLaw _ (State.TableKept.tableLaw (by constructor <;> simp) hs) hs
  | listeningEnd => cases h; exact State.unlessReset_tableLaw _ (State.testListening_tableLaw hs) hs
  | lineIdle =>
    cases h; exact State.TableLaw.ite (fun _ => State.TableKept.tableLaw (by constructor <;> simp) hs) hs
  | startBitTaken =>
    cases h; exact State.TableLaw.ite (fun _ => State.TableKept.tableLaw (by constructor <;> simp) hs) hs
  | breakEnd =>
    cases h; exact State.TableLaw.ite (fun _ => State.TableKept.tableLaw (by constructor <;> simp) hs) hs
  | responseEnd => cases h; exact State.TableLaw.ite (fun _ => s.trail_kept.tableLaw hs) hs

/-- Settles O4: the command at the front keeps the law, and so does idling. -/
theorem everyStepKeepsTheTableLaw : Obligations.EveryStepKeepsTheTableLaw := by
  intro s t hp hs h
  unfold step at h
  split at h
  next => cases h; exact hs
  next c rest _ => exact exec_tableLaw c (s := { s with pending := rest }) hp hs h

end Sys2Proof.Machine

/-! Ordered frames at a station: what one does to counters, flags, orders and the outbox, and the acceptance
of a CLAIM that keeps the step state (O43). -/

namespace Sys2Proof.Machine

/-! ### Counters -/

/-- A withdrawal counts in CLAIMS_WITHDRAWN and nowhere else (R85). -/
theorem State.counter_withdraw (p : Body → Bool) (k : Counter) (s : State) :
    (s.withdraw p).counter k =
      if k = .claimsWithdrawn then satAdd16 (s.counter k) (s.tx.withdrawnClaims p) else s.counter k := by
  split
  next h => rw [h]; exact Counters.read_rise_self _ _ _
  next h => exact Counters.read_rise_other _ _ _ _ (Ne.symm h)

/-- An offer to the Order Queue counts in its own two counters alone (R152). -/
theorem State.counter_offerOrder (o : Order) (k : Counter) (s : State) (hi : k ≠ .ordersIssued)
    (hm : k ≠ .ordersMissed) : (s.offerOrder o).counter k = s.counter k := by
  unfold State.offerOrder
  split
  · rfl
  · exact Counters.read_rise_other _ _ _ _ (Ne.symm hi)
  · exact Counters.read_rise_other _ _ _ _ (Ne.symm hm)
  · exact Counters.read_rise_other _ _ _ _ (Ne.symm hi)

theorem State.counter_applyClaim (a : Addr) (stamp : Tick) (epoch : Byte) (k : Counter) (s : State) :
    (s.applyClaim a stamp epoch).counter k = s.counter k := by
  simp [State.counter]

/-- A CLOSE moves only the counters of the Order Queue and of withdrawals. -/
theorem State.counter_applyClose (a : Addr) (n : Half) (k : Counter) (s : State) (hi : k ≠ .ordersIssued)
    (hm : k ≠ .ordersMissed) (hw : k ≠ .claimsWithdrawn) : (s.applyClose a n).counter k = s.counter k := by
  unfold State.applyClose
  split
  · rw [State.counter_withdraw, if_neg hw]; rfl
  · dsimp only
    rw [State.counter_withdraw, if_neg hw]
    split
    · rw [State.counter_offerOrder _ _ _ hi hm]; rfl
    · rfl

theorem State.counter_applyEpoch (a : Addr) (k : Counter) (s : State) (hw : k ≠ .claimsWithdrawn) :
    (s.applyEpoch a).counter k = s.counter k := by
  unfold State.applyEpoch
  dsimp only
  split
  · rw [State.counter_withdraw, if_neg hw]; rfl
  · rfl

/-- An applied frame leaves every counter but its own, the Order Queue's and the one of withdrawals. -/
theorem State.counter_applyFrame (a : Addr) (body : Sequenced) (k : Counter) (s : State)
    (hf : k ≠ .framesApplied) (hi : k ≠ .ordersIssued) (hm : k ≠ .ordersMissed) (hw : k ≠ .claimsWithdrawn) :
    (s.applyFrame a body).counter k = s.counter k := by
  have hrise : (s.rise .framesApplied 1).counter k = s.counter k :=
    State.counter_rise_other _ _ _ _ (Ne.symm hf)
  cases body with
  | claim stamp epoch => exact (State.counter_applyClaim _ _ _ _ _).trans hrise
  | close n => exact (State.counter_applyClose _ _ _ _ hi hm hw).trans hrise
  | epoch => exact (State.counter_applyEpoch _ _ _ hw).trans hrise

/-! ### A CLAIM applied -/

theorem Table.claim_count (a : Addr) (stamp : Tick) (due : Option Tick) (t : Table) (e : ClaimEffect) :
    (t.claim a stamp due e).count = t.count ∧ (t.claim a stamp due e).digest = t.digest := by
  cases e <;> exact ⟨rfl, rfl⟩

/-- A CLAIM applied leaves orders, flags, and every counter but FRAMES_APPLIED. -/
theorem State.applyFrame_claim_frame (a : Addr) (stamp : Tick) (epoch : Byte) (s : State) :
    (s.applyFrame a (.claim stamp epoch)).orders = s.orders
      ∧ (s.applyFrame a (.claim stamp epoch)).flags = s.flags
      ∧ (s.applyFrame a (.claim stamp epoch)).counters = Counters.rise .framesApplied 1 s.counters := by
  simp [State.applyFrame]

/-- A CLAIM that opens no record leaves the outbox. -/
theorem State.applyFrame_claim_tx (a : Addr) (stamp : Tick) (epoch : Byte) (s : State)
    (h : (s.applyFrame a (.claim stamp epoch)).table.slots.length = s.table.slots.length) :
    (s.applyFrame a (.claim stamp epoch)).tx = s.tx := by
  rw [State.applyFrame_table] at h
  dsimp only at h
  rw [Table.claim_slots_length] at h
  unfold State.applyFrame State.applyClaim
  dsimp only
  rw [if_neg]
  · rfl
  · intro hopens
    simp only [State.rise_params] at hopens
    rw [if_pos hopens] at h
    simp [Table.advance] at h

/-- Where a CLAIM opens a record at an IN_STEP station, every reached due has its CLOSE, and nothing else
changes in the outbox (R26, R31, R32). -/
theorem State.applyFrame_claim_reached (a : Addr) (stamp : Tick) (epoch : Byte) (s : State)
    (hi : s.stepState = .inStep) (hn : s.tx.ClosesName s.table.slots)
    (ho : (s.applyFrame a (.claim stamp epoch)).table.slots.length = s.table.slots.length + 1) :
    (s.applyFrame a (.claim stamp epoch)).ReachedDuesQueued
      ∧ (∀ e ∈ s.tx.outbox, e ∈ (s.applyFrame a (.claim stamp epoch)).tx.outbox)
      ∧ ∀ e ∈ (s.applyFrame a (.claim stamp epoch)).tx.outbox, e ∈ s.tx.outbox
          ∨ ∃ r ∈ (s.applyFrame a (.claim stamp epoch)).table.slots,
              reachedOpt s.tick r.due = true ∧ e = Entry.fresh (.close r.number) :=
  State.applyClaim_reached a stamp epoch
    { s.rise .framesApplied 1 with table := s.table.advance (digestedBytes a (.claim stamp epoch)) } hi hn ho

/-! ### Acceptances that keep the step state -/

/-- Steps 1 and 2 of an acceptance that is no EPOCH's, and the record, leave all this (R66). -/
theorem State.arrive_plain (h : Header) (carried : Option Half) (s : State) :
    (s.arrive h carried false).rx = .waitIdle ∧ (s.arrive h carried false).tick = s.tick
      ∧ (s.arrive h carried false).tx = { s.tx with recessive := 0 }
      ∧ (s.arrive h carried false).lastClaimed = s.lastClaimed
      ∧ (s.arrive h carried false).lastSent = s.lastSent
      ∧ (s.arrive h carried false).listeningEnd = s.listeningEnd
      ∧ (s.arrive h carried false).requester = s.requester
      ∧ (s.arrive h carried false).responder = s.responder
      ∧ (s.arrive h carried false).counters = s.counters := by
  simp [State.arrive, State.receiverDone, State.lineBusy]

/-- The ways a vote that keeps the step state can go (R88 to R91, R96). -/
inductive State.QuietVote (h : Header) (m : State) : State → Prop
  | noVote : QuietVote h m m
  | agree : QuietVote h m (m.voteAgree h.sender)
  | below : QuietVote h m (m.countDisagreement h.sender)
  | diverged : QuietVote h m { (m.countDisagreement h.sender).setFlag .diverged with streak := 0 }

/-- A vote goes one of the quiet ways, or the station leaves step. -/
theorem State.vote_cases (h : Header) (m : State) :
    State.QuietVote h m (m.vote h) ∨ m.vote h = (m.countDisagreement h.sender).leaveStep
      ∧ m.votes h = true ∧ m.agrees h = false ∧ m.stepState = .inStep
      ∧ m.params.v.toNat ≤ addrCount (addAddr m.streak h.sender) := by
  unfold State.vote
  split
  next hv =>
    split
    next => exact .inl .agree
    next ha =>
      unfold State.voteDisagree
      dsimp only
      split
      next hthreshold =>
        split
        next hi => exact .inr ⟨rfl, hv, by simpa using ha, hi, hthreshold⟩
        next => exact .inl .diverged
      next => exact .inl .below
  next => exact .inl .noVote

/-- What every quiet vote leaves: all but roster, streak, flags and DISAGREEMENTS. -/
theorem State.QuietVote.frame {h : Header} {m t : State} (hq : State.QuietVote h m t) :
    t.rx = m.rx ∧ t.tick = m.tick ∧ t.tx = m.tx ∧ t.table = m.table ∧ t.stepState = m.stepState
      ∧ t.lastClaimed = m.lastClaimed ∧ t.lastSent = m.lastSent ∧ t.listeningEnd = m.listeningEnd
      ∧ t.requester = m.requester ∧ t.responder = m.responder
      ∧ (∀ k, k ≠ .disagreements → t.counter k = m.counter k) := by
  have hcount : ∀ k, k ≠ .disagreements → (m.countDisagreement h.sender).counter k = m.counter k :=
    fun k hk => Counters.read_rise_other _ _ _ _ (Ne.symm hk)
  cases hq with
  | noVote => exact ⟨rfl, rfl, rfl, rfl, rfl, rfl, rfl, rfl, rfl, rfl, fun _ _ => rfl⟩
  | agree => exact ⟨rfl, rfl, rfl, rfl, rfl, rfl, rfl, rfl, rfl, rfl, fun _ _ => rfl⟩
  | below => exact ⟨rfl, rfl, rfl, rfl, rfl, rfl, rfl, rfl, rfl, rfl, hcount⟩
  | diverged => exact ⟨rfl, rfl, rfl, rfl, rfl, rfl, rfl, rfl, rfl, rfl, hcount⟩

/-- A vote that keeps the step state is quiet. -/
theorem State.KeepsStep.accept_quiet {h : Header} {s : State} (hk : s.KeepsStep h) :
    State.QuietVote h (s.arrive h none false) (s.accept h none false) := by
  have hstep : (s.arrive h none false).stepState = s.stepState := by simp
  have hl : (s.arrive h none false).stepState ≠ .listening := by
    rw [hstep]; rcases hk with hk | ⟨hk, -⟩ <;> simp [hk]
  have hacc : s.accept h none false = (s.arrive h none false).vote h := by
    unfold State.accept State.monitor; rw [if_neg hl]
  rw [hacc]
  refine (State.vote_cases h _).resolve_right fun ⟨hleaves, _, _, hi, _⟩ => ?_
  obtain ⟨hkept, -⟩ := hk.accept
  rw [hacc, hleaves] at hkept
  have hout : (((s.arrive h none false).countDisagreement h.sender).leaveStep).stepState = .outOfStep :=
    (State.enterOutOfStep_facts _).2.2.2.2.2.1
  rw [hout, ← hstep, hi] at hkept
  cases hkept

/-- Settles O43: the quiet vote, then the claim's own effect. -/
theorem acceptedClaimIsApplied : Obligations.AcceptedClaimIsApplied := by
  intro h stamp epoch s hr hk
  obtain ⟨hstep, htable, htx, htick, hparams, haddr⟩ := hk.accept
  obtain ⟨hrx, -, -, -, -, hclaimed, hsent, -, hreq, hresp, hcount⟩ := hk.accept_quiet.frame
  obtain ⟨arx, -, -, aclaimed, asent, -, areq, aresp, acounters⟩ := State.arrive_plain h none s
  have happlies : s.stepState = .inStep ∨ s.stepState = .mute := by
    rcases hk with hk | ⟨hk, -⟩
    · exact .inr hk
    · exact .inl hk
  have hrec : s.RecordedPlain h ((s.accept h none false).ownSequenced h (.claim stamp epoch)) :=
    (State.accept_recorded h none false s).ownSequenced h _
  have howner : (s.accept h none false).ownSequenced h (.claim stamp epoch)
      = (s.accept h none false).applyFrame h.sender (.claim stamp epoch) := by
    unfold State.ownSequenced
    rw [hstep]
    rcases happlies with hi | hi <;> rw [hi]
  rw [howner] at hrec
  have horders : (s.accept h none false).orders = s.orders := by simp
  have hstage : (s.accept h none false).stage = s.stage := by simp
  have harmed : (s.accept h none false).armed = s.armed := by simp
  have hframes : (s.accept h none false).counter .framesApplied = s.counter .framesApplied := by
    rw [hcount _ (by decide), State.counter, acounters]; rfl
  have hexec : exec (.claimAccepted h stamp epoch) s
      = .next ((s.accept h none false).applyFrame h.sender (.claim stamp epoch)) := by
    simp only [exec, execClaimAccepted, hr, if_true, howner]
  refine ⟨_, hexec, ?_⟩
  generalize s.accept h none false = m at *
  have hdue : m.openingDue h.sender stamp = s.openingDue h.sender stamp := by
    simp [State.openingDue, hstep, hparams, haddr]
  obtain ⟨forders, -, -⟩ := State.applyFrame_claim_frame h.sender stamp epoch m
  have ftable := State.applyFrame_table h.sender (.claim stamp epoch) m
  dsimp only at ftable
  rw [htable, hdue, hparams] at ftable
  obtain ⟨fcount, fdigest⟩ := Table.claim_count h.sender stamp (s.openingDue h.sender stamp)
    (s.table.advance (digestedBytes h.sender (.claim stamp epoch)))
    (Table.claimEffect s.params.w.toNat h.sender stamp epoch
      (s.table.advance (digestedBytes h.sender (.claim stamp epoch))))
  refine ⟨by simp [hrx, arx], by simpa using hstep, ?_, ftable, by rw [ftable]; exact fcount,
    by rw [ftable]; exact fdigest, by simpa using htick, forders.trans horders, by simp [hreq, areq],
    by simp [hresp, aresp], by simpa using hstage, by simpa using harmed, by simp [hclaimed, aclaimed],
    by simp [hsent, asent], by simpa using hparams, fun hlen => ?_, fun hi hbox _ hlen => ?_, hrec⟩
  · rw [(State.applyFrame_counters _ _ _).1, hframes]
  · rw [State.applyFrame_claim_tx h.sender stamp epoch m (by rw [hlen, htable]), htx]
  · have hreached := State.applyFrame_claim_reached h.sender stamp epoch m (hstep.trans hi)
      (by rw [htx, htable]; exact hbox.closesName) (by rw [hlen, htable])
    rw [htx, htick] at hreached
    simpa [htick] using hreached

end Sys2Proof.Machine

/-! Acceptances at a station that only listens (O47). -/

namespace Sys2Proof.Machine

/-! ### Rises by nothing -/

theorem Counters.rise_zero (c : Counter) (v : Counters) : Counters.rise c 0 v = v := by
  apply Vector.ext
  intro i hi
  have hget := Counters.get_rise c 0 v ⟨i, hi⟩
  rw [Vector.get_eq_getElem, Vector.get_eq_getElem] at hget
  rw [hget]
  split <;> simp

/-- A withdrawal finds nothing in an empty outbox with nothing deferred. -/
theorem Transmitter.withdraw_empty (p : Body → Bool) (t : Transmitter) (ho : t.outbox = [])
    (hd : t.deferred = []) : (t.withdraw p).outbox = [] ∧ t.withdrawnClaims p = 0 := by
  simp [Transmitter.withdraw, Transmitter.admitDeferred, admitOffers, Transmitter.withdrawnClaims, ho, hd]

/-! ### The arrival of an EPOCH (R44) -/

/-- The arrival effects at a configured station. -/
theorem State.epochArrival_configured (s : State) (h : s.stepState ≠ .unconfigured) :
    s.epochArrival = (s.setTick 0).withdraw (Body.isKind .claim) := by
  simp [State.epochArrival, State.configured, h]

theorem State.epochArrival_unconfigured (s : State) (h : s.stepState = .unconfigured) :
    s.epochArrival = s := by
  simp [State.epochArrival, State.configured, h]

/-- A deadline at a set of the counter to 0 is what remained (R115). -/
theorem rebase_zero (old due : Tick) : rebase old 0#24 due = due - old := BitVec.zero_add _

/-- An EPOCH's steps 1 and 2 and its record are its arrival effects on the station that has taken the frame
off the line (R44, R66). -/
theorem State.arrive_epoch (h : Header) (carried : Option Half) (s : State) (m : State)
    (hm : m = (s.receiverDone.setFlagIf (h.sender == s.addr) .addressClash).epochArrival) :
    s.arrive h carried true = m.record h carried := by
  rw [hm]; rfl

/-- An EPOCH that arrives at a configured station: the counter is 0, and the CLAIM entries are withdrawn
(R44, R78, R102, R115, R140). -/
theorem State.arrive_epoch_configured (h : Header) (carried : Option Half) (s : State)
    (hc : s.stepState ≠ .unconfigured) :
    (s.arrive h carried true).rx = .waitIdle ∧ (s.arrive h carried true).tick = 0
      ∧ (s.arrive h carried true).tx
          = ({ s.tx with recessive := 0 } : Transmitter).withdraw (Body.isKind .claim)
      ∧ (s.arrive h carried true).lastClaimed = none ∧ (s.arrive h carried true).lastSent = 0
      ∧ (s.arrive h carried true).listeningEnd = s.listeningEnd.map (fun e => e - s.tick)
      ∧ (s.arrive h carried true).requester = { s.requester with phase := s.requester.phase.rebase s.tick 0 }
      ∧ (s.arrive h carried true).responder = { s.responder with phase := s.responder.phase.rebase s.tick 0 }
      ∧ (s.arrive h carried true).counters
          = Counters.rise .claimsWithdrawn (s.tx.withdrawnClaims (Body.isKind .claim)) s.counters := by
  have hrebase : rebase s.tick 0#24 = fun e => e - s.tick := funext (rebase_zero s.tick)
  rw [State.arrive_epoch h carried s _ rfl, State.epochArrival_configured _ (by simpa using hc)]
  refine ⟨?_, ?_, ?_, ?_, ?_, ?_, ?_, ?_, ?_⟩ <;>
    simp [State.setTick, State.receiverDone, State.lineBusy, hrebase, Transmitter.withdrawnClaims]

/-- An UNCONFIGURED station takes no arrival effect. -/
theorem State.arrive_epoch_unconfigured (h : Header) (carried : Option Half) (s : State)
    (hc : s.stepState = .unconfigured) : s.arrive h carried true = s.arrive h carried false := by
  rw [State.arrive_epoch h carried s _ rfl, State.epochArrival_unconfigured _ (by simpa using hc)]
  rfl

/-! ### Listeners -/

/-- A station that only listens makes of an accepted frame its record alone, with the arrival effects of an
EPOCH. -/
theorem State.OnlyListens.accept_eq {h : Header} {s : State} (hl : s.OnlyListens h) (carried : Option Half)
    (epoch : Bool) : s.accept h carried epoch = s.arrive h carried epoch := by
  have hstep : (s.arrive h carried epoch).stepState = s.stepState := by simp
  unfold State.accept State.monitor State.vote State.votes State.applies
  rw [hstep]
  rcases hl with hun | hcon | ⟨hlis, hin⟩
  · simp [hun]
  · simp [hcon]
  · simp [hlis, hin]

/-- No owner acts on the frame at a station that only listens (R1, R42, R112, R126, R127). -/
theorem State.OnlyListens.owners {h : Header} {s : State} (hl : s.OnlyListens h) (m : State)
    (hm : m.stepState = s.stepState) :
    (∀ body, m.ownSequenced h body = m) ∧ (∀ tick epoch, m.ownClear tick epoch = m)
      ∧ (∀ body, m.ownState h body = m) ∧ m.ownStateReq h = m := by
  unfold State.ownSequenced State.ownClear State.ownState State.ownStateReq
  rw [hm]
  rcases hl with hun | hcon | ⟨hlis, -⟩
  · rw [hun]
    refine ⟨fun _ => rfl, fun _ _ => rfl, fun body => ?_, rfl⟩
    cases readStateBody body <;> rfl
  · rw [hcon]
    refine ⟨fun _ => rfl, fun _ _ => rfl, fun body => ?_, rfl⟩
    cases readStateBody body <;> rfl
  · rw [hlis]
    refine ⟨fun _ => rfl, fun _ _ => rfl, fun body => ?_, rfl⟩
    cases readStateBody body <;> rfl

/-- The command brings a frame with this header: its carried fingerprint, and whether it is an EPOCH. -/
inductive Instr.Brings (h : Header) : Instr → Option Half → Bool → Prop
  | claim (stamp : Tick) (epoch : Byte) : Brings h (.claimAccepted h stamp epoch) none false
  | close (number : Half) : Brings h (.closeAccepted h number) none false
  | clear (tick : Tick) (epoch : Byte) : Brings h (.clearAccepted h tick epoch) none false
  | epoch : Brings h (.epochAccepted h) none true
  | state (body : List Byte) (hw : Kind.lengthOk .state body.length = true) :
      Brings h (.stateAccepted h body) none false
  | stateReq (fingerprint : Half) (attempt : Byte) :
      Brings h (.stateReqAccepted h fingerprint attempt) (some fingerprint) false
  | presence (fingerprint : Half) : Brings h (.presenceAccepted h fingerprint) (some fingerprint) false

theorem Instr.Brings.epoch_iff {h : Header} {c : Instr} {carried : Option Half} {epoch : Bool}
    (hb : Instr.Brings h c carried epoch) : epoch = true ↔ c = .epochAccepted h := by
  cases hb <;> simp

/-- The acceptance of the frame at a station that only listens. -/
theorem State.OnlyListens.exec_eq {h : Header} {s : State} (hl : s.OnlyListens h) (hr : s.receives = true)
    {c : Instr} {carried : Option Half} {epoch : Bool} (hb : Instr.Brings h c carried epoch) :
    exec c s = .next (s.arrive h carried epoch) := by
  obtain ⟨hseq, hclear, hstate, hreq⟩ := hl.owners (s.arrive h carried epoch) (by simp)
  have hacc := hl.accept_eq carried epoch
  cases hb with
  | claim stamp ep => simp only [exec, execClaimAccepted, hr, if_true, hacc, hseq]
  | close number => simp only [exec, execCloseAccepted, hr, if_true, hacc, hseq]
  | clear tick ep => simp only [exec, execClearAccepted, hr, if_true, hacc, hclear]
  | epoch => simp only [exec, execEpochAccepted, hr, if_true, hacc, hseq]
  | state body hw => simp only [exec, execStateAccepted, hr, hw, if_true, hacc, hstate]
  | stateReq fingerprint attempt => simp only [exec, execStateReqAccepted, hr, if_true, hacc, hreq]
  | presence fingerprint => simp only [exec, execPresenceAccepted, hr, if_true, hacc]

/-- A station that only listens neither transmits nor resynchronises nor answers. -/
theorem State.OnlyListens.quiet {h : Header} {s : State} (hl : s.OnlyListens h) (hp : s.PhaseLaw)
    (ho : s.OutboxLaw) : s.tx.outbox = [] ∧ s.tx.deferred = [] ∧ s.requester = Requester.idle
      ∧ s.responder = Responder.idle := by
  obtain ⟨-, -, -, -, hphase, hidle, -, -, -, hresponder, -⟩ := hp
  have hstep : s.stepState ≠ .inStep ∧ s.stepState ≠ .outOfStep := by
    rcases hl with hl | hl | ⟨hl, -⟩ <;> simp [hl]
  obtain ⟨hin, hout⟩ := hstep
  have htransmits : s.transmits = false := by simp [State.transmits, hin, hout]
  obtain ⟨houtbox, hdeferred⟩ := ho.2.1 htransmits
  exact ⟨houtbox, hdeferred, hidle (not_not.mp fun hne => hout (hphase.mp hne)), hresponder hin⟩

/-- What the arrival leaves of a station that neither sends, resynchronises nor answers. -/
theorem State.arrive_listener (h : Header) (carried : Option Half) (epoch : Bool) (s : State)
    (hout : s.tx.outbox = []) (hdef : s.tx.deferred = []) (hreq : s.requester = Requester.idle)
    (hresp : s.responder = Responder.idle) :
    (s.arrive h carried epoch).rx = .waitIdle ∧ (s.arrive h carried epoch).counters = s.counters
      ∧ (s.arrive h carried epoch).requester = s.requester
      ∧ (s.arrive h carried epoch).responder = s.responder ∧ (s.arrive h carried epoch).tx.outbox = [] := by
  have hplain := State.arrive_plain h carried s
  obtain ⟨prx, -, ptx, -, -, -, preq, presp, pcount⟩ := hplain
  have hfalse : (s.arrive h carried false).rx = .waitIdle
      ∧ (s.arrive h carried false).counters = s.counters
      ∧ (s.arrive h carried false).requester = s.requester
      ∧ (s.arrive h carried false).responder = s.responder
      ∧ (s.arrive h carried false).tx.outbox = [] :=
    ⟨prx, pcount, preq, presp, by rw [ptx]; exact hout⟩
  cases epoch with
  | false => exact hfalse
  | true =>
    by_cases hc : s.stepState = .unconfigured
    · rw [State.arrive_epoch_unconfigured h carried s hc]; exact hfalse
    · obtain ⟨erx, -, etx, -, -, -, ereq, eresp, ecount⟩ := State.arrive_epoch_configured h carried s hc
      obtain ⟨hempty, -⟩ := Transmitter.withdraw_empty (Body.isKind .claim)
        ({ s.tx with recessive := 0 } : Transmitter) hout hdef
      obtain ⟨-, hnone⟩ := Transmitter.withdraw_empty (Body.isKind .claim) s.tx hout hdef
      refine ⟨erx, by rw [ecount, hnone, Counters.rise_zero], ?_, ?_, by rw [etx]; exact hempty⟩
      · rw [ereq, hreq]; rfl
      · rw [eresp, hresp]; rfl

/-- Settles O47: the arrival alone, kind by kind. -/
theorem listenersOnlyRecord : Obligations.ListenersOnlyRecord := by
  intro c h s hr hp ho hl hc
  obtain ⟨carried, epoch, hb⟩ : ∃ carried epoch, Instr.Brings h c carried epoch := by
    rcases hc with ⟨st, ep, rfl⟩ | ⟨n, rfl⟩ | ⟨tk, ep, rfl⟩ | rfl | ⟨body, rfl, hw⟩ | ⟨fp, k, rfl⟩ | ⟨fp, rfl⟩
    · exact ⟨_, _, .claim st ep⟩
    · exact ⟨_, _, .close n⟩
    · exact ⟨_, _, .clear tk ep⟩
    · exact ⟨_, _, .epoch⟩
    · exact ⟨_, _, .state body hw⟩
    · exact ⟨_, _, .stateReq fp k⟩
    · exact ⟨_, _, .presence fp⟩
  obtain ⟨hout, hdef, hreq, hresp⟩ := hl.quiet hp ho
  obtain ⟨lrx, lcount, lreq, lresp, lout⟩ := State.arrive_listener h carried epoch s hout hdef hreq hresp
  obtain ⟨hclash, hpeer, hothers, htable, hstreak, hstep, -⟩ := State.arrive_facts h carried epoch s _ rfl
  have hplain : epoch = false ∨ s.stepState = .unconfigured →
      s.arrive h carried epoch = s.arrive h carried false := by
    rintro (rfl | hun)
    · rfl
    · cases epoch with
      | false => rfl
      | true => exact State.arrive_epoch_unconfigured h carried s hun
  refine ⟨_, hl.exec_eq hr hb, lrx, hstep, htable, lcount, lreq, lresp, lout, by simp, hstreak,
    fun hne => ?_, fun he hconf => ?_, hclash, fun hown => ?_, fun hne => ?_⟩
  · obtain ⟨-, ptick, -, pclaimed, psent, plistening, -⟩ := State.arrive_plain h carried s
    rw [hplain (hne.imp_left fun hne => by simpa using mt hb.epoch_iff.mp hne)]
    exact ⟨ptick, pclaimed, plistening, psent⟩
  · have hepoch := hb.epoch_iff.mpr he
    subst hepoch
    obtain ⟨-, etick, -, eclaimed, esent, elistening, -⟩ := State.arrive_epoch_configured h carried s hconf
    exact ⟨etick, eclaimed, elistening, esent⟩
  · obtain ⟨hpresence, hin, harmed, -⟩ := hothers s.addr (.inr rfl)
    exact ⟨hpresence, hin, harmed⟩
  · obtain ⟨hin, harmed, hheard, -, -, hpresence⟩ := hpeer hne
    exact ⟨hin, harmed, hheard, hpresence⟩

end Sys2Proof.Machine

/-! Withdrawals while nothing is in transmission, the entry into OUT_OF_STEP, and the vote that brings the
streak to V (O50). -/

namespace Sys2Proof.Machine

/-! ### Withdrawals while nothing is in transmission (R71, R72) -/

/-- No entry of the outbox is in transmission. -/
def Transmitter.Still (t : Transmitter) : Prop := ∀ e ∈ t.outbox, e.sending = false

theorem Transmitter.Law.still {t : Transmitter} (h : t.Law) (ho : t.onLine = none) : t.Still := by
  obtain ⟨-, -, -, -, -, -, -, -, -, -, -, hsending, -⟩ := h
  simp only [ho, Option.isSome_none, Bool.false_eq_true, if_false, List.length_eq_zero_iff,
    List.filter_eq_nil_iff, Bool.not_eq_true] at hsending
  exact hsending

/-- A withdrawal then takes every entry it names, and marks none. -/
theorem Transmitter.Still.withdraw_eq {t : Transmitter} (h : t.Still) (p : Body → Bool) :
    t.withdraw p = Transmitter.admitDeferred
      { t with outbox := t.outbox.filter (fun e => !p e.body),
               deferred := t.deferred.filter (fun b => !p b) } := by
  have hkept : (t.outbox.filter (fun e => !p e.body || e.sending)).map
      (fun e => if p e.body then { e with mark := true } else e) = t.outbox.filter (fun e => !p e.body) := by
    have hfilter : t.outbox.filter (fun e => !p e.body || e.sending)
        = t.outbox.filter (fun e => !p e.body) :=
      List.filter_congr fun e he => by rw [h e he, Bool.or_false]
    rw [hfilter]
    refine (List.map_congr_left fun e he => ?_).trans (List.map_id _)
    have hp : p e.body = false := by simpa using (List.mem_filter.mp he).2
    simp [hp]
  unfold Transmitter.withdraw
  rw [hkept]

theorem Transmitter.withdraw_deferred_subset (p : Body → Bool) (t : Transmitter) :
    ∀ b ∈ (t.withdraw p).deferred, b ∈ t.deferred ∧ p b = false := by
  intro b hb
  simpa using admitOffers_deferred_sub _ _ b hb

/-- What a withdrawal leaves: entries it does not name, which stood or were deferred. -/
theorem Transmitter.Still.mem_withdraw {t : Transmitter} (h : t.Still) (p : Body → Bool) {x : Entry}
    (hx : x ∈ (t.withdraw p).outbox) :
    x.sending = false ∧ p x.body = false ∧ (x ∈ t.outbox ∨ ∃ b ∈ t.deferred, x = Entry.fresh b) := by
  rw [h.withdraw_eq] at hx
  rcases mem_admitOffers _ _ _ hx with hx | ⟨b, hb, rfl⟩
  · obtain ⟨hmem, hp⟩ := List.mem_filter.mp hx
    exact ⟨h x hmem, by simpa using hp, .inl hmem⟩
  · obtain ⟨hmem, hp⟩ := List.mem_filter.mp hb
    exact ⟨rfl, by simpa [Entry.fresh] using hp, .inr ⟨b, hmem, rfl⟩⟩

theorem Transmitter.Still.withdraw {t : Transmitter} (h : t.Still) (p : Body → Bool) : (t.withdraw p).Still :=
  fun _ hx => (h.mem_withdraw p hx).1

/-- What two withdrawals leave. -/
theorem Transmitter.Still.mem_withdraw_withdraw {t : Transmitter} (h : t.Still) (p q : Body → Bool)
    {x : Entry}
    (hx : x ∈ ((t.withdraw p).withdraw q).outbox) :
    x.sending = false ∧ p x.body = false ∧ q x.body = false
      ∧ (x ∈ t.outbox ∨ ∃ b ∈ t.deferred, x = Entry.fresh b) := by
  obtain ⟨hsending, hq, hx | ⟨b, hb, rfl⟩⟩ := (h.withdraw p).mem_withdraw q hx
  · obtain ⟨-, hp, hfrom⟩ := h.mem_withdraw p hx
    exact ⟨hsending, hp, hq, hfrom⟩
  · obtain ⟨hmem, hp⟩ := Transmitter.withdraw_deferred_subset p t b hb
    exact ⟨hsending, hp, hq, .inr ⟨b, hmem, rfl⟩⟩

/-- The entries of a kind are as many as a withdrawal that names the kind removes at once. -/
theorem Transmitter.Still.withdrawnClaims {t : Transmitter} (h : t.Still) (p : Body → Bool)
    (hp : ∀ b, b.isKind .claim = true → p b = true) : t.withdrawnClaims p = t.countKind .claim := by
  unfold Transmitter.withdrawnClaims Transmitter.countKind
  congr 1
  refine List.filter_congr fun e he => ?_
  rw [h e he]
  cases hk : e.body.isKind .claim with
  | true => simp [hp _ hk]
  | false => simp

/-- A withdrawal that names no CLAIM removes none. -/
theorem Transmitter.withdrawnClaims_zero (t : Transmitter) (p : Body → Bool)
    (hp : ∀ b, b.isKind .claim = true → p b = false) : t.withdrawnClaims p = 0 := by
  unfold Transmitter.withdrawnClaims
  rw [List.length_eq_zero_iff, List.filter_eq_nil_iff]
  intro e _ hc
  simp only [Bool.and_eq_true] at hc
  obtain ⟨⟨hpe, -⟩, hk⟩ := hc
  rw [hp _ hk] at hpe; cases hpe

theorem Transmitter.countKind_zero_iff (k : Kind) (t : Transmitter) :
    t.countKind k = 0 ↔ ∀ e ∈ t.outbox, e.body.isKind k = false := by
  simp [Transmitter.countKind, List.filter_eq_nil_iff]

/-! ### Entries and offers of a kind -/

/-- The entries and the deferred offers of a kind together. -/
def Transmitter.kindTotal (k : Kind) (t : Transmitter) : Nat :=
  t.countKind k + (t.deferred.filter (Body.isKind k)).length

/-- An admission moves offers into the outbox and loses none. -/
theorem admitOffers_kindTotal (k : Kind) (bs : List Body) (es : List Entry) :
    ((admitOffers bs es).1.filter (fun e => e.body.isKind k)).length
        + ((admitOffers bs es).2.filter (Body.isKind k)).length
      = (es.filter (fun e => e.body.isKind k)).length + (bs.filter (Body.isKind k)).length := by
  induction bs generalizing es with
  | nil => simp [admitOffers]
  | cons b bs ih =>
    unfold admitOffers
    split
    · rw [ih, countP_insertEntry, List.filter_cons]
      by_cases hb : Body.isKind k b = true
      · simp [Entry.fresh, hb]; omega
      · simp [Entry.fresh, hb]
    · rfl

theorem Transmitter.Still.withdraw_kindTotal_le {t : Transmitter} (h : t.Still) (p : Body → Bool) (k : Kind) :
    (t.withdraw p).kindTotal k ≤ t.kindTotal k := by
  unfold Transmitter.kindTotal Transmitter.countKind
  rw [h.withdraw_eq, Transmitter.admitDeferred, admitOffers_kindTotal]
  exact Nat.add_le_add ((List.filter_sublist.filter _).length_le) ((List.filter_sublist.filter _).length_le)

/-- At most one entry or offer of PRESENCE stands (R68, R71). -/
theorem Transmitter.Law.presence_le_one {t : Transmitter} (h : t.Law) : t.kindTotal .presence ≤ 1 := by
  obtain ⟨-, -, -, -, -, -, -, hpresence, -, -, -, -, hdeferred, hsorted, -⟩ := h
  have hone : (t.deferred.filter (Body.isKind .presence)).length ≤ 1 := by
    by_contra hmany
    match hl : t.deferred.filter (Body.isKind .presence) with
    | [] => simp [hl] at hmany
    | [_] => simp [hl] at hmany
    | a :: b :: rest =>
      have hpair := hsorted.sublist (List.filter_sublist (p := Body.isKind .presence))
      have ha : a ∈ t.deferred.filter (Body.isKind .presence) := by rw [hl]; simp
      have hb : b ∈ t.deferred.filter (Body.isKind .presence) := by rw [hl]; simp
      rw [hl] at hpair
      have hlt := (List.pairwise_cons.mp hpair).1 b (by simp)
      have hka : a.kind = .presence := by simpa [Body.isKind] using (List.mem_filter.mp ha).2
      have hkb : b.kind = .presence := by simpa [Body.isKind] using (List.mem_filter.mp hb).2
      rw [hka, hkb] at hlt
      exact absurd hlt (by decide)
  unfold Transmitter.kindTotal
  cases hl : t.deferred.filter (Body.isKind .presence) with
  | nil => simpa using hpresence
  | cons a rest =>
    have ha : a ∈ t.deferred.filter (Body.isKind .presence) := by rw [hl]; simp
    obtain ⟨hmem, hk⟩ := List.mem_filter.mp ha
    have hka : a.kind = .presence := by simpa [Body.isKind] using hk
    have hnone := (hdeferred a hmem).2
    rw [hka, Transmitter.holds, List.any_eq_false] at hnone
    have hzero : t.countKind .presence = 0 :=
      (t.countKind_zero_iff .presence).mpr fun e he => by simpa using hnone e he
    rw [← hl, hzero]
    omega

/-- The general entries are those of the four general kinds (R68). -/
theorem generalCount_eq (es : List Entry) : generalCount es =
    (es.filter (fun e => e.body.isKind .claim)).length + (es.filter (fun e => e.body.isKind .state)).length
      + (es.filter (fun e => e.body.isKind .stateReq)).length
      + (es.filter (fun e => e.body.isKind .presence)).length := by
  unfold generalCount
  induction es with
  | nil => rfl
  | cons e es ih =>
    simp only [List.filter_cons]
    cases hb : e.body <;> simp [Body.isKind, Body.kind, Kind.general] at ih ⊢ <;> omega

/-- A kind that stands neither admitted nor deferred does not come by a withdrawal. -/
theorem Transmitter.Still.withdraw_queued {t : Transmitter} (h : t.Still) (p : Body → Bool) (k : Kind)
    (hq : t.queued k = false) : (t.withdraw p).queued k = false := by
  simp only [Transmitter.queued, Transmitter.holds, Bool.or_eq_false_iff, List.any_eq_false] at *
  obtain ⟨hadmitted, hdeferred⟩ := hq
  refine ⟨fun x hx => ?_, fun b hb => hdeferred b (Transmitter.withdraw_deferred_subset p t b hb).1⟩
  obtain ⟨-, -, hx | ⟨b, hb, rfl⟩⟩ := h.mem_withdraw p hx
  · exact hadmitted x hx
  · exact hdeferred b hb

/-! ### The entry into OUT_OF_STEP (R93, R94) -/

/-- The Transmitter at the entry: ordered frames and STATE withdrawn, the STATE_REQ of attempt 1 offered. -/
theorem State.enterOutOfStep_tx (s : State) : s.enterOutOfStep.tx =
    ((s.tx.withdraw (fun b => b.kind.ordered)).withdraw (Body.isKind .state)).offer
      (.stateReq s.fingerprint 1) := by
  simp [State.enterOutOfStep, State.openRequester, State.offerRequest, State.requestBody,
    State.abandonResponder, State.dropDues]

/-- The entry counts the CLAIM entries in CLAIMS_WITHDRAWN, and nothing else (R85, R93). -/
theorem State.enterOutOfStep_counter (k : Counter) (s : State) (h : s.tx.Still) :
    s.enterOutOfStep.counter k = if k = .claimsWithdrawn then
      satAdd16 (s.counter k) (s.tx.countKind .claim) else s.counter k := by
  have hordered : s.tx.withdrawnClaims (fun b => b.kind.ordered) = s.tx.countKind .claim :=
    h.withdrawnClaims _ fun b hb => by
      rw [Body.isKind, beq_iff_eq] at hb; rw [hb]; rfl
  have hstate : (s.tx.withdraw (fun b => b.kind.ordered)).withdrawnClaims (Body.isKind .state) = 0 :=
    Transmitter.withdrawnClaims_zero _ _ fun b hb => by
      rw [Body.isKind, beq_iff_eq] at hb; rw [Body.isKind, hb]; rfl
  have hcounters : s.enterOutOfStep.counters =
      Counters.rise .claimsWithdrawn (s.tx.countKind .claim) s.counters := by
    simp [State.enterOutOfStep, State.abandonResponder, State.dropDues, hordered, hstate, Counters.rise_zero]
  rw [State.counter, hcounters]
  split
  next hk => rw [hk]; exact Counters.read_rise_self _ _ _
  next hk => exact Counters.read_rise_other _ _ _ _ (Ne.symm hk)

/-- The outbox at the entry, while no request stands: the new STATE_REQ is in it, and beside it neither an
ordered frame nor a STATE. A general place is free, since at most a PRESENCE is left (R68). -/
theorem State.enterOutOfStep_outbox (s : State) (h : s.tx.Still) (hq : s.tx.queued .stateReq = false)
    (hp : s.tx.kindTotal .presence ≤ 1) :
    Entry.fresh (.stateReq s.fingerprint 1) ∈ s.enterOutOfStep.tx.outbox
      ∧ ∀ x ∈ s.enterOutOfStep.tx.outbox, x.body.kind.ordered = false ∧ x.body.isKind .state = false := by
  have hstill := h.withdraw (fun b => b.kind.ordered)
  have hqueued := hstill.withdraw_queued (Body.isKind .state) _ (h.withdraw_queued _ _ hq)
  have hpresence := (hstill.withdraw_kindTotal_le (Body.isKind .state) .presence).trans
    ((h.withdraw_kindTotal_le _ _).trans hp)
  have hleft : ∀ x ∈ ((s.tx.withdraw (fun b => b.kind.ordered)).withdraw (Body.isKind .state)).outbox,
      x.body.kind.ordered = false ∧ x.body.isKind .state = false := by
    intro x hx
    obtain ⟨-, hordered, hstate, -⟩ := h.mem_withdraw_withdraw _ _ hx
    exact ⟨hordered, hstate⟩
  rw [State.enterOutOfStep_tx]
  generalize (s.tx.withdraw (fun b => b.kind.ordered)).withdraw (Body.isKind .state) = t at *
  have hroom : generalCount t.outbox < Config.maxGeneral := by
    have hclaim : t.countKind .claim = 0 := (t.countKind_zero_iff _).mpr fun e he => by
      have hordered := (hleft e he).1
      rw [← Bool.not_eq_true, Body.isKind, beq_iff_eq]
      intro hkind
      rw [hkind] at hordered; cases hordered
    have hstate : t.countKind .state = 0 := (t.countKind_zero_iff _).mpr fun e he => (hleft e he).2
    have hreq : t.countKind .stateReq = 0 := (t.countKind_zero_iff _).mpr fun e he => by
      simp only [Transmitter.queued, Transmitter.holds, Bool.or_eq_false_iff, List.any_eq_false] at hqueued
      simpa using hqueued.1 e he
    have hcount := generalCount_eq t.outbox
    unfold Transmitter.kindTotal at hpresence
    unfold Transmitter.countKind at *
    unfold Config.maxGeneral
    omega
  have hnot : t.queued (Body.stateReq s.fingerprint 1).kind = false := hqueued
  rw [Transmitter.offer, if_neg (Bool.eq_false_iff.mp hnot), if_pos hroom]
  refine ⟨(mem_insertEntry _ _ _).mpr (.inl rfl), fun x hx => ?_⟩
  rcases (mem_insertEntry _ _ _).mp hx with rfl | hx
  · exact ⟨rfl, rfl⟩
  · exact hleft x hx

/-! ### The vote that takes the station out of step (R91, R93) -/

/-- The mark that decides the vote is the one the arrival leaves. -/
theorem State.arrive_mismatched (h : Header) (carried : Option Half) (epoch : Bool) (s : State)
    (hm : (s.roster.entry h.sender).mismatched = false) (hc : carried = none ∨ carried = some s.fingerprint) :
    ((s.arrive h carried epoch).roster.entry h.sender).mismatched = false := by
  obtain ⟨-, hpeer, hothers, -⟩ := State.arrive_facts h carried epoch s _ rfl
  by_cases hown : h.sender = s.addr
  · rw [(hothers h.sender (.inr hown)).2.2.2.1, hm]
  · rw [(hpeer hown).2.2.2.1]
    rcases hc with rfl | rfl
    · exact hm
    · simp [State.markAfter, hm]

theorem State.LeavesStep.accept_eq {h : Header} {s : State} (hl : s.LeavesStep h) (carried : Option Half)
    (epoch : Bool) (hc : carried = none ∨ carried = some s.fingerprint) :
    s.accept h carried epoch = ((s.arrive h carried epoch).countDisagreement h.sender).leaveStep := by
  obtain ⟨hstep, hin, hmark, hdiffer, hthreshold⟩ := hl
  obtain ⟨m, rfl, hvoted⟩ := State.accept_voted h carried epoch s (by simp [State.applies, hstep]) hin
    fun m hm => hm ▸ State.arrive_mismatched h carried epoch s hmark hc
  have hdisagree : ¬(h.count = s.table.count ∧ h.digest = s.table.digest) := by tauto
  rw [hvoted, if_neg hdisagree, State.voteDisagree]
  dsimp only
  have hstreak : ((s.arrive h carried epoch).countDisagreement h.sender).streak
      = addAddr s.streak h.sender := by
    rw [State.countDisagreement]; simp
  rw [hstreak, if_pos (by simpa using hthreshold), if_pos (by simpa using hstep)]

/-- No owner acts on the frame once it has taken the station out of step (R110, R111, R112, R126). -/
theorem State.owners_outOfStep_unsent (h : Header) (m : State) (hm : m.stepState = .outOfStep)
    (hp : m.requester.phase = .requesting none) :
    (∀ body, m.ownSequenced h body = m) ∧ (∀ body, m.ownState h body = m) ∧ m.ownStateReq h = m := by
  refine ⟨fun body => ?_, fun body => ?_, ?_⟩
  · unfold State.ownSequenced State.holdFrame Requester.collecting
    simp only [hm, hp, Bool.false_eq_true, if_false]
  · unfold State.ownState State.requesterState
    simp only [hm, hp, ite_self]
    cases readStateBody body <;> rfl
  · unfold State.ownStateReq
    simp [hm]

/-- The acceptance of a frame, no CLEAR, that takes the station out of step. -/
theorem State.LeavesStep.exec_eq {h : Header} {s : State} (hl : s.LeavesStep h) (hr : s.receives = true)
    {c : Instr} {carried : Option Half} {epoch : Bool} (hb : Instr.Brings h c carried epoch)
    (hn : ∀ tk ep, c ≠ .clearAccepted h tk ep) (hc : carried = none ∨ carried = some s.fingerprint) :
    exec c s = .next (s.accept h carried epoch) := by
  have hout : (s.accept h carried epoch).stepState = .outOfStep := by
    rw [hl.accept_eq carried epoch hc]
    exact (State.enterOutOfStep_facts _).2.2.2.2.2.1
  have hphase : (s.accept h carried epoch).requester.phase = .requesting none := by
    rw [hl.accept_eq carried epoch hc, State.leaveStep, (State.enterOutOfStep_contexts _).1]
  obtain ⟨hseq, hstate, hreq⟩ := State.owners_outOfStep_unsent h _ hout hphase
  cases hb with
  | claim stamp ep => simp only [exec, execClaimAccepted, hr, if_true, hseq]
  | close number => simp only [exec, execCloseAccepted, hr, if_true, hseq]
  | clear tick ep => exact absurd rfl (hn tick ep)
  | epoch => simp only [exec, execEpochAccepted, hr, if_true, hseq]
  | state body hw => simp only [exec, execStateAccepted, hr, hw, if_true, hstate]
  | stateReq fingerprint attempt => simp only [exec, execStateReqAccepted, hr, if_true, hreq]
  | presence fingerprint => simp only [exec, execPresenceAccepted, hr, if_true]

/-- The arrival at an IN_STEP station leaves or withdraws its CLAIM entries, and brings nothing. -/
theorem State.arrive_still (h : Header) (carried : Option Half) (epoch : Bool) (s : State)
    (hi : s.stepState = .inStep) (hs : s.tx.Still) :
    (s.arrive h carried epoch).tx.Still
      ∧ (∀ k, s.tx.queued k = false → (s.arrive h carried epoch).tx.queued k = false)
      ∧ (∀ k, (s.arrive h carried epoch).tx.kindTotal k ≤ s.tx.kindTotal k)
      ∧ satAdd16 ((s.arrive h carried epoch).counter .claimsWithdrawn)
          ((s.arrive h carried epoch).tx.countKind .claim)
        = satAdd16 (s.counter .claimsWithdrawn) (s.tx.countKind .claim)
      ∧ ∀ k, k ≠ .claimsWithdrawn → (s.arrive h carried epoch).counter k = s.counter k := by
  cases epoch with
  | false =>
    obtain ⟨-, -, htx, -, -, -, -, -, hcounters⟩ := State.arrive_plain h carried s
    rw [htx]
    exact ⟨hs, fun _ hq => hq, fun _ => le_refl _, by rw [State.counter, hcounters]; rfl,
      fun k _ => by rw [State.counter, hcounters]; rfl⟩
  | true =>
    obtain ⟨-, -, htx, -, -, -, -, -, hcounters⟩ :=
      State.arrive_epoch_configured h carried s (by simp [hi])
    have hbusy : ({ s.tx with recessive := 0 } : Transmitter).Still := hs
    have hclaims : s.tx.withdrawnClaims (Body.isKind .claim) = s.tx.countKind .claim :=
      hs.withdrawnClaims _ fun _ hb => hb
    have hnone : (({ s.tx with recessive := 0 } : Transmitter).withdraw (Body.isKind .claim)).countKind .claim
        = 0 :=
      (Transmitter.countKind_zero_iff _ _).mpr fun e he => (hbusy.mem_withdraw _ he).2.1
    rw [htx]
    refine ⟨hbusy.withdraw _, fun k hq => hbusy.withdraw_queued _ k hq,
      fun k => hbusy.withdraw_kindTotal_le _ k, ?_, fun k hk => ?_⟩
    · rw [hnone, State.counter, hcounters, hclaims, Counters.read_rise_self, satAdd16_zero]; rfl
    · rw [State.counter, hcounters]; exact Counters.read_rise_other _ _ _ _ (Ne.symm hk)

theorem Table.shared_withoutDues (t : Table) :
    Table.shared { t with slots := t.slots.map (fun r => { r with due := none }) } = t.shared := by
  simp [Table.shared, EventRecord.replicated]

/-- Settles O50: the arrival, the counted disagreement, and the entry into OUT_OF_STEP. -/
theorem thresholdTakesTheStationOutOfStep : Obligations.ThresholdTakesTheStationOutOfStep := by
  intro c h s hr hp ho hl hc
  obtain ⟨carried, epoch, hb, hcarried, hclear⟩ : ∃ carried epoch, Instr.Brings h c carried epoch
      ∧ (carried = none ∨ carried = some s.fingerprint) ∧ ∀ tk ep, c ≠ .clearAccepted h tk ep := by
    rcases hc with ⟨st, ep, rfl⟩ | ⟨n, rfl⟩ | rfl | ⟨body, rfl, hw⟩ | ⟨k, rfl⟩ | rfl
    · exact ⟨_, _, .claim st ep, .inl rfl, by simp⟩
    · exact ⟨_, _, .close n, .inl rfl, by simp⟩
    · exact ⟨_, _, .epoch, .inl rfl, by simp⟩
    · exact ⟨_, _, .state body hw, .inl rfl, by simp⟩
    · exact ⟨_, _, .stateReq _ k, .inr rfl, by simp⟩
    · exact ⟨_, _, .presence _, .inr rfl, by simp⟩
  obtain ⟨hstep, -, hmark, -⟩ := id hl
  have hconf : s.stepState ≠ .unconfigured := by simp [hstep]
  have honline : s.tx.onLine = none := by
    simp only [State.receives, Bool.and_eq_true, Option.isNone_iff_eq_none] at hr
    exact hr.2
  have hidle : s.requester.phase ≠ .requesting none := fun hphase => by
    have := hp.2.2.2.2.1.mp (by rw [hphase]; simp)
    rw [hstep] at this; cases this
  have hqueued : s.tx.queued .stateReq = false := by
    rw [← Bool.not_eq_true]; exact fun hq => hidle (ho.2.2.2.2.1.mp hq)
  obtain ⟨astill, aqueued, atotal, aclaims, acounter⟩ :=
    State.arrive_still h carried epoch s hstep (ho.1.still honline)
  have hrecorded := State.accept_recorded h carried epoch s
  have hmarkAfter : s.markAfter carried (s.roster.entry h.sender).mismatched
      = (s.roster.entry h.sender).mismatched := by
    rcases hcarried with rfl | rfl
    · rfl
    · simp [State.markAfter, hmark]
  rw [hmarkAfter] at hrecorded
  obtain ⟨n, hn⟩ : ∃ n, n = ((s.arrive h carried epoch).countDisagreement h.sender).setFlag .leftStep :=
    ⟨_, rfl⟩
  have haccept : s.accept h carried epoch = n.enterOutOfStep := hn ▸ hl.accept_eq carried epoch hcarried
  have htx : n.tx = (s.arrive h carried epoch).tx := by simp [hn]
  have hfp : n.fingerprint = s.fingerprint := by simp [hn]
  have htab : n.table = s.table := by simp [hn]
  have hcounted : ∀ k, n.counter k = ((s.arrive h carried epoch).rise .disagreements 1).counter k :=
    fun k => by rw [hn]; rfl
  have hflag : n.hasFlag .leftStep = true := hn ▸ State.hasFlag_setFlag_self _ _
  have hframe : n.tick = (s.arrive h carried epoch).tick
      ∧ n.lastClaimed = (s.arrive h carried epoch).lastClaimed := by simp [hn]
  rw [← htx] at astill aqueued atotal aclaims
  obtain ⟨-, hflags, htick, -, hstreak, hout, -⟩ := n.enterOutOfStep_facts
  obtain ⟨hrequester, hresponder, htable⟩ := n.enterOutOfStep_contexts
  obtain ⟨hrequest, hothers⟩ := n.enterOutOfStep_outbox astill (aqueued _ hqueued)
    ((atotal _).trans ho.1.presence_le_one)
  have hcounters := fun k => n.enterOutOfStep_counter k astill
  have hclaimed : n.enterOutOfStep.lastClaimed = n.lastClaimed := by simp
  simp only [hcounted] at hcounters
  rw [hfp] at hrequest
  rw [htab] at htable
  rw [← haccept] at hflags htick hstreak hout hrequester hresponder htable hrequest hothers hclaimed
  simp only [← haccept] at hcounters
  refine ⟨_, hl.exec_eq hr hb hclear hcarried, hout, ?_, hstreak, hresponder, hrequester, hrequest, hothers,
    ?_, ?_, ?_, ?_, ?_, by simp, by simp, hrecorded, fun hne => ?_, fun he => ?_⟩
  · rw [State.hasFlag, hflags]; exact hflag
  · rw [hcounters, if_pos rfl, State.counter_rise_other _ _ _ _ (by decide)]; exact aclaims
  · rw [hcounters, if_neg (by decide), State.counter_rise_self, acounter _ (by decide)]
  · rw [hcounters, if_neg (by decide), State.counter_rise_other _ _ _ _ (by decide), acounter _ (by decide)]
  · rw [htable]; exact Table.shared_withoutDues _
  · rw [htable]
    intro r hr
    obtain ⟨x, -, rfl⟩ := List.mem_map.mp hr
    rfl
  · have hepoch : epoch = false := by simpa using mt hb.epoch_iff.mp hne
    subst hepoch
    obtain ⟨-, ptick, -, pclaimed, -⟩ := State.arrive_plain h carried s
    exact ⟨hclaimed.trans (hframe.2.trans pclaimed), htick.trans (hframe.1.trans ptick)⟩
  · have hepoch := hb.epoch_iff.mpr he
    subst hepoch
    obtain ⟨-, etick, -, eclaimed, -⟩ := State.arrive_epoch_configured h carried s hconf
    exact ⟨hclaimed.trans (hframe.2.trans eclaimed), htick.trans (hframe.1.trans etick)⟩

end Sys2Proof.Machine

/-! Record chunks at a station that receives a snapshot (O54). -/

namespace Sys2Proof.Machine

/-! ### Flags and counters through the held frames -/

/-- The Order Queue sets its own two flags alone (R152). -/
theorem State.offerOrder_hasFlag (o : Order) (f : Flag) (s : State) (hm : f ≠ .orderMissed)
    (hf : f ≠ .ordersFlushed) : (s.offerOrder o).hasFlag f = s.hasFlag f := by
  unfold State.offerOrder
  split
  · rfl
  · rw [State.hasFlag_setFlag_other _ _ _ (Ne.symm hf)]; rfl
  · rw [State.hasFlag_setFlag_other _ _ _ (Ne.symm hm)]; rfl
  · rfl

/-- An ordered frame sets no flag but the Order Queue's two. -/
theorem State.applyFrame_hasFlag (a : Addr) (body : Sequenced) (f : Flag) (s : State) (hm : f ≠ .orderMissed)
    (hf : f ≠ .ordersFlushed) : (s.applyFrame a body).hasFlag f = s.hasFlag f := by
  cases body with
  | claim stamp epoch => rw [State.hasFlag, (State.applyFrame_claim_frame a stamp epoch s).2.1]; rfl
  | close n =>
    unfold State.applyFrame State.applyClose
    dsimp only
    split
    · rfl
    · split
      · exact State.offerOrder_hasFlag _ f _ hm hf
      · rfl
  | epoch => simp [State.applyFrame, State.hasFlag]

theorem State.applyHeld_hasFlag (fs : List Held) (f : Flag) (s : State) (hm : f ≠ .orderMissed)
    (hf : f ≠ .ordersFlushed) : (s.applyHeld fs).hasFlag f = s.hasFlag f := by
  induction fs generalizing s with
  | nil => rfl
  | cons x fs ih => rw [State.applyHeld, ih, State.applyFrame_hasFlag _ _ _ _ hm hf]

theorem State.counter_applyHeld (fs : List Held) (k : Counter) (s : State) (hf : k ≠ .framesApplied)
    (hi : k ≠ .ordersIssued) (hm : k ≠ .ordersMissed) (hw : k ≠ .claimsWithdrawn) :
    (s.applyHeld fs).counter k = s.counter k := by
  induction fs generalizing s with
  | nil => rfl
  | cons x fs ih => rw [State.applyHeld, ih, State.counter_applyFrame _ _ _ _ hf hi hm hw]

/-- An install without a gap sets no flag but the Order Queue's two. -/
theorem State.install_hasFlag {hd : SnapHeader} {records : List EventRecord} {marked : List Held} {s : State}
    (hw : walk hd.position s.requester.hold = some marked) (f : Flag) (hm : f ≠ .orderMissed)
    (hf : f ≠ .ordersFlushed) : (s.install hd records).hasFlag f = s.hasFlag f := by
  have hheld := State.applyHeld_hasFlag marked f { s with table := installedTable hd records } hm hf
  unfold State.install
  rw [hw]
  simpa [State.computeDues, State.hasFlag] using hheld

/-! ### Failures that a request follows (R122, R123) -/

/-- A failure other than an unanswered request is followed by the next attempt at once. -/
theorem State.fail_answered {k : FailKind} (hk : k ≠ .unanswered) (s : State) :
    (s.fail k).requester = { phase := .requesting none, attempt := satAdd8 s.requester.attempt 1,
                             unanswered := 0, hold := [] }
      ∧ (s.fail k).table = s.table ∧ (s.fail k).stepState = s.stepState
      ∧ (s.fail k).counter .resyncsFailed = satAdd16 (s.counter .resyncsFailed) 1
      ∧ (s.tx.queued .stateReq = false →
          (s.fail k).tx.Offers (.stateReq s.fingerprint (satAdd8 s.requester.attempt 1))) := by
  have hnext : s.fail k = State.nextAttempt { s.rise .resyncsFailed 1 with
      requester := { s.requester with phase := .requesting none, unanswered := 0, hold := [] } } := by
    simp [State.fail, unansweredAfter, hk, Config.maxUnanswered]
  rw [hnext]
  refine ⟨by simp, by simp, by simp, ?_, fun hq => Transmitter.offer_offers _ _ hq⟩
  have hcounters : ∀ x : State, x.nextAttempt.counters = x.counters := fun x => by simp
  rw [State.counter, hcounters]
  exact Counters.read_rise_self _ _ _

/-! ### The acceptance of a STATE frame out of step -/

/-- Out of step an acceptance that is no EPOCH's is its arrival alone: no vote is called for (R88). -/
theorem State.accept_outOfStep (h : Header) (carried : Option Half) (s : State)
    (ho : s.stepState = .outOfStep) : s.accept h carried false = s.arrive h carried false := by
  have hstep : (s.arrive h carried false).stepState = .outOfStep := by simpa using ho
  unfold State.accept State.monitor State.vote State.votes State.applies
  simp [ho]

/-- The station that has recorded the frame, before its owner acts, is the station before in all that an
install reads. -/
theorem State.arrive_sameCore (h : Header) (carried : Option Half) (s : State) :
    (s.arrive h carried false).SameCore s := by
  obtain ⟨-, -, htx, -, -, -, -, -, hcounters⟩ := State.arrive_plain h carried s
  constructor <;> simp [htx, hcounters]

/-- An arrival sets no flag but ADDRESS_CLASH (R67). -/
theorem State.arrive_hasFlag (h : Header) (carried : Option Half) (f : Flag) (s : State)
    (hf : f ≠ .addressClash) : (s.arrive h carried false).hasFlag f = s.hasFlag f := by
  have hclash := State.hasFlag_setFlagIf (h.sender == s.addr) .addressClash f s.receiverDone
  rw [beq_eq_false_iff_ne.mpr (Ne.symm hf), Bool.and_false, Bool.or_false] at hclash
  simpa [State.arrive, State.hasFlag] using hclash

/-- A STATE frame at an OUT_OF_STEP station goes to the requester (R66, R112). -/
theorem State.exec_stateAccepted_outOfStep (h : Header) (target index total : Byte) (payload : List Byte)
    (s : State) (hr : s.receives = true) (ho : s.stepState = .outOfStep)
    (hlen : Kind.lengthOk .state (3 + payload.length) = true) :
    exec (.stateAccepted h ([target, index, total] ++ payload)) s
      = .next ((s.arrive h none false).requesterState h.sender (3 + payload.length)
          ⟨target, index, total, payload⟩) := by
  have hbody : ([target, index, total] ++ payload).length = 3 + payload.length := by
    rw [List.length_append]; rfl
  have hstep : (s.arrive h none false).stepState = .outOfStep := by simpa using ho
  have hread : readStateBody ([target, index, total] ++ payload) = some ⟨target, index, total, payload⟩ := rfl
  simp only [exec, execStateAccepted, hr, hbody, hlen, if_true, State.accept_outOfStep h none s ho,
    State.ownState, hread, hstep]

/-- A chunk from elsewhere or for another station is passed over (R112). -/
theorem State.requesterState_passes {a : Addr} {n : Nat} {b : StateBody} {m : State} {c : Receiving}
    (hp : m.requester.phase = .receiving c) (hx : b.target ≠ addrByte m.addr ∨ a ≠ c.responder) :
    m.requesterState a n b = m := by
  unfold State.requesterState
  split
  next => rfl
  next htarget =>
    simp only [hp]
    rw [if_neg (hx.resolve_left htarget)]

theorem State.requesterState_takes {a : Addr} {n : Nat} {b : StateBody} {m : State} {c : Receiving}
    (hp : m.requester.phase = .receiving c) (ht : b.target = addrByte m.addr) (ha : a = c.responder) :
    m.requesterState a n b = m.takeChunk c n b := by
  unfold State.requesterState
  rw [if_neg (not_not.mpr ht)]
  simp only [hp]
  rw [if_pos ha]

/-- A chunk out of order, of another total, or with a payload that fails a test of R117. -/
theorem State.takeChunk_refuses {c : Receiving} {n : Nat} {b : StateBody} {m : State}
    (hx : b.index.toNat ≠ c.expected ∨ b.total.toNat ≠ c.total
      ∨ ∀ r, checkRecord m.params.w.toNat (c.expected ≤ c.header.openCount) c.header.epoch c.records b.payload
          = some r → n ≠ 16 + 2 * r.members.length) : m.takeChunk c n b = m.fail .badChunk := by
  unfold State.takeChunk
  split
  next => rfl
  next hindex =>
  split
  next => rfl
  next htotal =>
  have htests := (hx.resolve_left hindex).resolve_left htotal
  split
  next => rfl
  next r hr => rw [if_pos (htests r hr)]

/-- The chunk that is expected is taken: the next one is awaited, or the snapshot is installed. -/
theorem State.takeChunk_accepts {c : Receiving} {n : Nat} {b : StateBody} {m : State} {r : EventRecord}
    (hi : b.index.toNat = c.expected) (ht : b.total.toNat = c.total)
    (hr : checkRecord m.params.w.toNat (c.expected ≤ c.header.openCount) c.header.epoch c.records b.payload
      = some r) (hn : n = 16 + 2 * r.members.length) :
    m.takeChunk c n b =
      if c.expected + 1 = c.total then m.install c.header (c.records ++ [r])
      else { m with requester := { m.requester with
               phase := .receiving { c with records := c.records ++ [r], expected := c.expected + 1,
                                            deadline := m.tick + 32 } } } := by
  unfold State.takeChunk
  rw [if_neg (not_not.mpr hi), if_neg (not_not.mpr ht), hr]
  dsimp only
  rw [if_neg (not_not.mpr hn)]
  rfl

/-- A chunk in RECEIVING leaves the record of its frame, whatever becomes of it. -/
theorem State.Recorded.requesterState {h : Header} {mark : Bool} {s m : State} {c : Receiving}
    (hrec : s.Recorded h mark m) (hp : m.requester.phase = .receiving c) (a : Addr) (n : Nat)
    (b : StateBody) : s.Recorded h mark (m.requesterState a n b) := by
  have hfail : s.Recorded h mark (m.fail .badChunk) :=
    let ⟨hroster, htick, hclash⟩ := m.fail_record .badChunk
    hrec.of_eq hroster htick hclash
  by_cases hx : b.target ≠ addrByte m.addr ∨ a ≠ c.responder
  · rwa [State.requesterState_passes hp hx]
  · push Not at hx
    rw [State.requesterState_takes hp hx.1 hx.2]
    unfold State.takeChunk
    split
    · exact hfail
    split
    · exact hfail
    split
    · exact hfail
    split
    · exact hfail
    dsimp only
    split
    · obtain ⟨hroster, htick, hclash⟩ := m.install_record c.header (c.records ++ [_])
      exact hrec.of_eq hroster htick hclash
    · exact hrec.of_eq rfl rfl rfl

/-- Settles O54: the walk's rows, then the chunk passed over, refused, taken, and the last one. -/
theorem chunksAreTakenInOrder : Obligations.ChunksAreTakenInOrder := by
  refine ⟨fun running f rest => ⟨rfl, walk_rows running f rest⟩, ?_⟩
  intro h c target index total payload s hr ho hphase hlen
  have hexec := State.exec_stateAccepted_outOfStep h target index total payload s hr ho hlen
  refine ⟨_, hexec, ?_⟩
  have hcore := State.arrive_sameCore h none s
  obtain ⟨-, htick, htx, -, -, -, hreq, -, hcounters⟩ := State.arrive_plain h none s
  have hrec := State.accept_recorded h none false s
  rw [State.accept_outOfStep h none s ho] at hrec
  have hstage : (s.arrive h none false).stage = s.stage := by simp
  have hfp : (s.arrive h none false).fingerprint = s.fingerprint := by simp
  have hstreak : (s.arrive h none false).streak = s.streak := by simp
  have hflag := State.arrive_hasFlag h none .leftStep s (by decide)
  have hstep : (s.arrive h none false).stepState = .outOfStep := by simpa using ho
  generalize s.arrive h none false = m at *
  have hcounter : ∀ k, m.counter k = s.counter k := fun k => by rw [State.counter, hcounters]; rfl
  have hmphase : m.requester.phase = .receiving c := by rw [hreq, hphase]
  refine ⟨hrec.requesterState hmphase _ _ _, fun hx => ?_, fun htarget hsender hrefuse => ?_,
    fun r htarget hsender hindex htotal hcheck hlength => ?_⟩
  · rw [← hcore.addr] at hx
    rw [State.requesterState_passes hmphase hx]
    exact ⟨hreq, hcore.table, hstep, hcounters, hcore.outbox⟩
  · rw [← hcore.params] at hrefuse
    rw [State.requesterState_takes hmphase (by rw [hcore.addr]; exact htarget) hsender,
      State.takeChunk_refuses hrefuse]
    obtain ⟨frequester, ftable, fstep, fcounter, foffers⟩ :=
      State.fail_answered (k := .badChunk) (by decide) m
    rw [hreq, hfp, htx] at foffers
    exact ⟨by rw [frequester, hreq], by rw [fcounter, hcounter], ftable.trans hcore.table,
      fstep.trans hstep, foffers⟩
  · rw [← hcore.params] at hcheck
    rw [State.requesterState_takes hmphase (by rw [hcore.addr]; exact htarget) hsender,
      State.takeChunk_accepts hindex htotal hcheck hlength]
    refine ⟨fun hmore => ?_, fun hlast => ?_⟩
    · rw [if_neg (by omega), ← htick]
      exact ⟨by rw [hreq], hcore.table, hcounters⟩
    · rw [if_pos hlast, ← hreq]
      refine ⟨fun hgap => ?_, fun marked hmarked => ?_⟩
      · have hwalk : walk c.header.position m.requester.hold = none := hgap.elim id GapAt.walk_none
        have hinstall : m.install c.header (c.records ++ [r]) = m.fail .gap := by
          rw [State.install, hwalk]
        obtain ⟨frequester, ftable, fstep, fcounter, -⟩ := State.fail_answered (k := .gap) (by decide) m
        rw [hinstall]
        exact ⟨by rw [fcounter, hcounter], fstep.trans hstep, ftable.trans hcore.table,
          by simpa using hcore.orders, frequester⟩
      · have hinstalled := State.install_installedAs m s c.header (c.records ++ [r]) marked hcore hstep
          hstreak hmarked
        rw [htick] at hinstalled
        refine ⟨hinstalled, ?_, by simpa using htick, ?_, by simpa using hstage⟩
        · obtain ⟨-, -, -, -, -, happlied⟩ := hinstalled
          obtain ⟨-, -, hothers, -⟩ := happlied _ rfl
          rw [hothers .resyncsFailed (by decide),
            State.counter_applyHeld _ _ _ (by decide) (by decide) (by decide) (by decide)]
          rfl
        · rw [State.install_hasFlag hmarked .leftStep (by decide) (by decide), hflag]

end Sys2Proof.Machine

/-! The completion of the station's own CLAIM, CLOSE or EPOCH (O37). -/

namespace Sys2Proof.Machine

/-! ### The completion (R61) -/

/-- The entry `e` is the station's own frame on the line, at a station that applies ordered frames: what the
completion of one starts from. -/
structure State.Completes (s : State) (e : Entry) : Prop where
  awake : s.inReset = false
  online : s.tx.onLine.isSome = true
  law : s.tx.Law
  mem : e ∈ s.tx.outbox
  sending : e.sending = true
  applies : s.applies = true

/-- The own ordered frame completes: its entry is known, and its body is applied with the own address as
sender, `f` being what comes before (R2, R61). -/
theorem State.Completes.completeSequenced_eq {s : State} {e : Entry} (h : s.Completes e) {k : Kind}
    {body : Sequenced} (f : State → State) (hk : e.body.kind = k) (hb : e.body.sequenced = some body)
    (hstep : (f s.completed).stepState = s.stepState) (haddr : (f s.completed).addr = s.addr) :
    s.completeSequenced k f = (f s.completed).applyFrame s.addr body := by
  have hentry := sendingEntry_eq s.tx e h.law h.online h.mem h.sending
  have hsends : s.sends k = true := by
    simp [State.sends, State.sendingKind, h.awake, h.online, hentry, hk]
  have happlies : (f s.completed).applies = true := by
    rw [State.applies, hstep]; exact h.applies
  simp [State.completeSequenced, hsends, State.sendingBody, hentry, hb, State.applyOwn, happlies, haddr]

theorem State.Completes.exec_claim {s : State} {e : Entry} (h : s.Completes e) {stamp : Tick} {epoch : Byte}
    (hb : e.body = .claim stamp epoch) : exec .ownClaimCompletes s =
      .next ((s.completed.rise .claimsSent 1).applyFrame s.addr (.claim stamp epoch)) :=
  congrArg Host.Outcome.next
    (h.completeSequenced_eq _ (by rw [hb]; rfl) (by rw [hb]; rfl) (by simp) (by simp))

theorem State.Completes.exec_close {s : State} {e : Entry} (h : s.Completes e) {n : Half}
    (hb : e.body = .close n) :
    exec .ownCloseCompletes s = .next (s.completed.applyFrame s.addr (.close n)) :=
  congrArg Host.Outcome.next
    (h.completeSequenced_eq id (by rw [hb]; rfl) (by rw [hb]; rfl) (by simp) (by simp))

theorem State.Completes.exec_epoch {s : State} {e : Entry} (h : s.Completes e) (hb : e.body = .epoch) :
    exec .ownEpochCompletes s = .next (s.completed.epochArrival.applyFrame s.addr .epoch) :=
  congrArg Host.Outcome.next
    (h.completeSequenced_eq _ (by rw [hb]; rfl) (by rw [hb]; rfl) (by simp) (by simp))

/-- What every completion leaves and sets (R57, R61, R63, R103). -/
theorem State.completed_fields (s : State) :
    s.completed.tx.onLine = none ∧ s.completed.tx.discards = 0 ∧ s.completed.tx.yielding = true
      ∧ s.completed.rx = .waitIdle ∧ s.completed.lastSent = s.tick ∧ s.completed.table = s.table
      ∧ s.completed.counters = s.counters ∧ s.completed.orders = s.orders ∧ s.completed.flags = s.flags := by
  simp [State.completed]

/-- The outbox after a completion: the waiting entries, and deferred offers admitted. -/
theorem State.completed_outbox (s : State) :
    s.completed.tx.outbox = (admitOffers s.tx.deferred s.tx.waiting).1
      ∧ s.completed.tx.deferred = (admitOffers s.tx.deferred s.tx.waiting).2 := ⟨rfl, rfl⟩

/-- What stands after a completion, admitted or deferred: a waiting entry or an offer that was deferred. -/
theorem State.mem_completed {s : State} {x : Entry}
    (hx : x ∈ s.completed.tx.outbox ∨ ∃ b ∈ s.completed.tx.deferred, x = Entry.fresh b) :
    x ∈ s.tx.waiting ∨ ∃ b ∈ s.tx.deferred, x = Entry.fresh b := by
  rcases hx with hx | ⟨b, hb, rfl⟩
  · exact mem_admitOffers s.tx.deferred s.tx.waiting x hx
  · exact .inr ⟨b, admitOffers_deferred_sub s.tx.deferred s.tx.waiting b hb, rfl⟩

theorem State.completed_still (s : State) : s.completed.tx.Still := by
  intro x hx
  rcases State.mem_completed (.inl hx) with hx | ⟨b, -, rfl⟩
  · exact ((Transmitter.mem_waiting x s.tx).mp hx).2
  · rfl

/-- With nothing deferred only the waiting entries are left. -/
theorem State.completed_outbox_of_nil {s : State} (hd : s.tx.deferred = []) :
    s.completed.tx.outbox = s.tx.waiting ∧ s.completed.tx.deferred = [] := by
  obtain ⟨houtbox, hdeferred⟩ := s.completed_outbox
  rw [houtbox, hdeferred, hd]
  exact ⟨rfl, rfl⟩

/-! ### The outbox at a CLAIM and at a CLOSE -/

/-- The Close Scheduler brings CLOSE entries alone (R32). -/
theorem mem_scheduleCloses {now : Tick} {rs : List EventRecord} {t : Transmitter} {x : Entry}
    (hx : x ∈ (Transmitter.scheduleCloses now rs t).outbox) :
    x ∈ t.outbox ∨ ∃ n, x = Entry.fresh (.close n) := by
  induction rs generalizing t with
  | nil => exact .inl hx
  | cons r rs ih =>
    unfold Transmitter.scheduleCloses at hx
    rcases ih hx with hx | hx
    · split at hx
      · rcases (mem_insertEntry _ _ _).mp hx with rfl | hx
        · exact .inr ⟨r.number, rfl⟩
        · exact .inl hx
      · exact .inl hx
    · exact .inr hx

/-- A CLAIM takes no entry out of the outbox, and what it brings is a CLOSE. -/
theorem State.applyFrame_claim_outbox (a : Addr) (stamp : Tick) (epoch : Byte) (m : State) :
    (∀ x ∈ m.tx.outbox, x ∈ (m.applyFrame a (.claim stamp epoch)).tx.outbox)
      ∧ ∀ x ∈ (m.applyFrame a (.claim stamp epoch)).tx.outbox,
          x ∈ m.tx.outbox ∨ ∃ n, x = Entry.fresh (.close n) := by
  unfold State.applyFrame State.applyClaim State.scheduleCloses
  dsimp only
  split
  · dsimp only
    split
    · exact ⟨fun x hx => scheduleCloses_mem _ _ _ _ hx, fun x hx => mem_scheduleCloses hx⟩
    · exact ⟨fun _ hx => hx, fun _ hx => .inl hx⟩
  · exact ⟨fun _ hx => hx, fun _ hx => .inl hx⟩

/-- A CLOSE withdraws the CLOSE of its number (R37). -/
theorem State.applyFrame_close_tx (a : Addr) (n : Half) (m : State) :
    (m.applyFrame a (.close n)).tx = m.tx.withdraw (· == .close n) := by
  unfold State.applyFrame State.applyClose
  dsimp only
  split
  · simp
  · split <;> simp

/-- With nothing deferred a withdrawal takes what it names and leaves the rest in place. -/
theorem Transmitter.Still.withdraw_of_nil {t : Transmitter} (h : t.Still) (p : Body → Bool)
    (hd : t.deferred = []) :
    (t.withdraw p).outbox = t.outbox.filter (fun e => !p e.body) ∧ (t.withdraw p).deferred = [] := by
  rw [h.withdraw_eq, hd]
  exact ⟨rfl, rfl⟩

/-! ### The records at a CLOSE -/

theorem Table.closed_frame (q : Nat) (a : Addr) (n : Half) (note : EventRecord → OrderNote) (t : Table) :
    (t.closed q a n note).count = t.count ∧ (t.closed q a n note).digest = t.digest
      ∧ (t.closed q a n note).next = t.next ∧ (t.closed q a n note).epoch = t.epoch := by
  unfold Table.closed
  split <;> exact ⟨rfl, rfl, rfl, rfl⟩

/-- A CLOSE that names no open record is void (R33). -/
theorem Table.closed_of_absent (q : Nat) (a : Addr) (n : Half) (note : EventRecord → OrderNote) (t : Table)
    (h : ∀ r ∈ t.slots, r.number ≠ n) : t.closed q a n note = { t with void := satAdd8 t.void 1 } := by
  have hnone := (takeFirst_none (fun r : EventRecord => r.number == n) t.slots).mpr
    fun r hr => by simpa using h r hr
  rw [Table.closed, hnone]

/-- A CLOSE that names an open record closes the first of its number (R34, R35). -/
theorem Table.closed_of_found (q : Nat) (a : Addr) (n : Half) (note : EventRecord → OrderNote) (t : Table)
    (before after : List EventRecord) (r : EventRecord) (h : t.slots = before ++ r :: after)
    (hb : ∀ x ∈ before, x.number ≠ n) (hr : r.number = n) :
    t.closed q a n note =
      { t with slots := before ++ after, history := pushHistory t.history (r.closed q a (note r)) } := by
  have hfound := takeFirst_append (fun r : EventRecord => r.number == n) before r after
    (fun x hx => by simpa using hb x hx) (by simpa using hr)
  rw [Table.closed, h, hfound]

theorem pushHistory_eq (h : List EventRecord) (r : EventRecord) :
    pushHistory h r = (if h.length < 16 then h else h.drop 1) ++ [r] := by
  unfold pushHistory Config.maxHistory
  by_cases hl : h.length < 16
  · rw [if_neg (by omega), if_pos hl]
  · rw [if_pos (by omega), if_neg hl]

/-! ### Orders at a CLOSE -/

/-- What the Order Queue makes of an offer depends on the arm state, the queue, the flags and its counters
alone (R151, R152). -/
theorem State.offerOrder_congr {x y : State} (o : Order) (ha : x.armed = y.armed) (ho : x.orders = y.orders)
    (hf : x.flags = y.flags) :
    (x.offerOrder o).orders = (y.offerOrder o).orders ∧ (x.offerOrder o).flags = (y.offerOrder o).flags
      ∧ ∀ k, x.counter k = y.counter k → (x.offerOrder o).counter k = (y.offerOrder o).counter k := by
  have hanswer : x.orderAnswer o.number = y.orderAnswer o.number := by simp [State.orderAnswer, ha, ho]
  have hrise : ∀ c k, x.counter k = y.counter k → (x.rise c 1).counter k = (y.rise c 1).counter k := by
    intro c k hk
    by_cases hck : c = k
    · subst hck; rw [State.counter_rise_self, State.counter_rise_self, hk]
    · rw [State.counter_rise_other _ _ _ _ hck, State.counter_rise_other _ _ _ _ hck, hk]
  unfold State.offerOrder
  rw [hanswer]
  cases y.orderAnswer o.number with
  | disarmed => exact ⟨ho, hf, fun _ hk => hk⟩
  | superseded => exact ⟨by simp [ho], by simp [hf], hrise .ordersIssued⟩
  | full => exact ⟨by simp [ho], by simp [hf], hrise .ordersMissed⟩
  | room => exact ⟨by simp [ho], by simp [hf], hrise .ordersIssued⟩

/-- A void CLOSE makes no offer. -/
theorem State.applyFrame_close_absent (a : Addr) (n : Half) (m : State)
    (h : ∀ r ∈ m.table.slots, r.number ≠ n) :
    (m.applyFrame a (.close n)).orders = m.orders ∧ (m.applyFrame a (.close n)).flags = m.flags := by
  have hnone := (takeFirst_none (fun r : EventRecord => r.number == n) m.table.slots).mpr
    fun r hr => by simpa using h r hr
  unfold State.applyFrame State.applyClose
  simp only [Table.advance, hnone]
  exact ⟨rfl, rfl⟩

/-- A CLOSE offers the order of the record it accepts, and none of one it drops (R34, R36). -/
theorem State.applyFrame_close_found (a : Addr) (n : Half) (m : State) (before after : List EventRecord)
    (r : EventRecord) (h : m.table.slots = before ++ r :: after) (hb : ∀ x ∈ before, x.number ≠ n)
    (hr : r.number = n) :
    ∃ o : State, o = (if r.meets m.params.q.toNat then m.offerOrder r.order else m)
      ∧ (m.applyFrame a (.close n)).orders = o.orders ∧ (m.applyFrame a (.close n)).flags = o.flags
      ∧ ∀ k, k ≠ .framesApplied → k ≠ .claimsWithdrawn →
          (m.applyFrame a (.close n)).counter k = o.counter k := by
  have hfound := takeFirst_append (fun r : EventRecord => r.number == n) before r after
    (fun x hx => by simpa using hb x hx) (by simpa using hr)
  refine ⟨_, rfl, ?_⟩
  unfold State.applyFrame State.applyClose
  simp only [Table.advance, h, hfound, State.rise_params, State.withdraw_orders, State.withdraw_flags,
    State.counter_withdraw]
  split
  next =>
    obtain ⟨horders, hflags, hcounter⟩ := State.offerOrder_congr (x := { m.rise .framesApplied 1 with
      table := _ }) (y := m) r.order rfl rfl rfl
    refine ⟨horders, hflags, fun k hf hw => ?_⟩
    rw [if_neg hw]
    exact hcounter k (State.counter_rise_other _ _ _ _ (Ne.symm hf))
  next =>
    refine ⟨rfl, rfl, fun k hf hw => ?_⟩
    rw [if_neg hw]
    exact State.counter_rise_other _ _ _ _ (Ne.symm hf)

/-- The own CLOSE of a record: its order is offered as the station stood (R34, R36). -/
theorem State.completed_close_found {s : State} (n : Half) (before after : List EventRecord) (r : EventRecord)
    (h : s.table.slots = before ++ r :: after) (hb : ∀ x ∈ before, x.number ≠ n) (hr : r.number = n)
    {o : State} (ho : o = if r.meets s.params.q.toNat then s.offerOrder r.order else s) (k : Counter)
    (hf : k ≠ .framesApplied) (hw : k ≠ .claimsWithdrawn) :
    (s.completed.applyFrame s.addr (.close n)).orders = o.orders
      ∧ (s.completed.applyFrame s.addr (.close n)).flags = o.flags
      ∧ (s.completed.applyFrame s.addr (.close n)).counter k = o.counter k := by
  obtain ⟨-, -, -, -, -, ctable, ccounters, corders, cflags⟩ := s.completed_fields
  have ccounter : s.completed.counter k = s.counter k := by rw [State.counter, ccounters]; rfl
  obtain ⟨x, hx, forders, fflags, fcounter⟩ := State.applyFrame_close_found s.addr n s.completed
    before after r (by rw [ctable]; exact h) hb hr
  rw [forders, fflags, fcounter k hf hw, hx, ho, show s.completed.params = s.params by simp]
  split
  · obtain ⟨horders, hflags, hcounter⟩ := State.offerOrder_congr (x := s.completed) (y := s) r.order
      (by simp) corders cflags
    exact ⟨horders, hflags, hcounter k ccounter⟩
  · exact ⟨corders, cflags, ccounter⟩

/-! ### The own EPOCH -/

/-- An EPOCH applied where frames are applied: the open records dropped, the CLOSE entries withdrawn, and
nothing counted but FRAMES_APPLIED (R45, R46). -/
theorem State.applyFrame_epoch (a : Addr) (m : State) (ha : m.applies = true) :
    (m.applyFrame a .epoch).tx = m.tx.withdraw (Body.isKind .close)
      ∧ (m.applyFrame a .epoch).counters = Counters.rise .framesApplied 1 m.counters
      ∧ (m.applyFrame a .epoch).orders = m.orders ∧ (m.applyFrame a .epoch).flags = m.flags := by
  have hnone : m.tx.withdrawnClaims (Body.isKind .close) = 0 :=
    Transmitter.withdrawnClaims_zero _ _ fun b hb => by
      rw [Body.isKind, beq_iff_eq] at hb; rw [Body.isKind, hb]; rfl
  have happlies : State.applies { m.rise .framesApplied 1 with
      table := (m.table.advance (digestedBytes a .epoch)).epochEnds a } = true := ha
  have heq : m.applyFrame a .epoch = State.withdraw (Body.isKind .close) { m.rise .framesApplied 1 with
      table := (m.table.advance (digestedBytes a .epoch)).epochEnds a } := by
    unfold State.applyFrame State.applyEpoch
    exact if_pos happlies
  rw [heq]
  exact ⟨rfl, by simp [hnone, Counters.rise_zero], rfl, rfl⟩

theorem eq_of_filter_length_le_one {α : Type} {p : α → Bool} {l : List α} {x y : α}
    (h : (l.filter p).length ≤ 1) (hx : x ∈ l) (hy : y ∈ l) (hpx : p x = true) (hpy : p y = true) :
    x = y := by
  have hmx : x ∈ l.filter p := List.mem_filter.mpr ⟨hx, hpx⟩
  have hmy : y ∈ l.filter p := List.mem_filter.mpr ⟨hy, hpy⟩
  match hl : l.filter p with
  | [] => rw [hl] at hmx; cases hmx
  | [z] =>
    rw [hl, List.mem_singleton] at hmx hmy
    rw [hmx, hmy]
  | _ :: _ :: _ => rw [hl] at h; simp at h

/-- A deferred offer is a STATE, a STATE_REQ or a PRESENCE (R71). -/
theorem Transmitter.Law.deferred_kind {t : Transmitter} (h : t.Law) :
    ∀ b ∈ t.deferred, b.kind = .state ∨ b.kind = .stateReq ∨ b.kind = .presence := by
  obtain ⟨-, -, -, -, -, -, -, -, -, -, -, -, hdeferred, -⟩ := h
  exact fun b hb => (hdeferred b hb).1

/-- The own EPOCH leaves as the only one of its kind (R68). -/
theorem State.Completes.noEpoch {s : State} {e x : Entry} (h : s.Completes e) (hb : e.body = .epoch)
    (hx : x ∈ s.completed.tx.outbox ∨ ∃ b ∈ s.completed.tx.deferred, x = Entry.fresh b) :
    x.body.isKind .epoch = false := by
  rw [← Bool.not_eq_true]
  intro hk
  rcases State.mem_completed hx with hx | ⟨b, hbm, rfl⟩
  · obtain ⟨hmem, hstill⟩ := (Transmitter.mem_waiting x s.tx).mp hx
    have hone : (s.tx.outbox.filter (fun e => e.body.isKind .epoch)).length ≤ 1 :=
      h.law.2.2.2.1
    have hxe := eq_of_filter_length_le_one hone hmem h.mem hk (by rw [hb]; rfl)
    rw [hxe, h.sending] at hstill; cases hstill
  · have hkind : b.kind = .epoch := by simpa [Entry.fresh, Body.isKind] using hk
    rcases h.law.deferred_kind b hbm with hd | hd | hd <;> rw [hkind] at hd <;> cases hd

/-- While the frame that completes is no CLAIM, every CLAIM entry still stands (R61, R71). -/
theorem State.Completes.claims {s : State} {e : Entry} (h : s.Completes e) (hk : e.body.isKind .claim = false) :
    s.completed.tx.countKind .claim = s.tx.countKind .claim := by
  have hnone : ∀ bs : List Body, (∀ b ∈ bs, b ∈ s.tx.deferred) →
      (bs.filter (Body.isKind .claim)).length = 0 := by
    intro bs hbs
    rw [List.length_eq_zero_iff, List.filter_eq_nil_iff]
    intro b hb hclaim
    rw [Body.isKind, beq_iff_eq] at hclaim
    rcases h.law.deferred_kind b (hbs b hb) with hd | hd | hd <;> rw [hclaim] at hd <;> cases hd
  have hwaiting : s.tx.waiting.filter (fun x => x.body.isKind .claim)
      = s.tx.outbox.filter (fun x => x.body.isKind .claim) := by
    rw [Transmitter.waiting, List.filter_filter]
    refine List.filter_congr fun x hx => ?_
    cases hsx : x.sending with
    | false => simp
    | true => rw [sending_unique s.tx e x h.law h.online h.mem h.sending hx hsx, hk]; rfl
  have htotal := admitOffers_kindTotal .claim s.tx.deferred s.tx.waiting
  rw [hnone _ (fun _ hb => hb), hnone _ (admitOffers_deferred_sub _ _), hwaiting] at htotal
  unfold Transmitter.countKind
  rw [s.completed_outbox.1]
  omega

/-- The completion of the own EPOCH and its arrival effects, before it is applied (R44, R75, R78, R102). -/
theorem State.completed_epochArrival {s : State} (hc : s.stepState ≠ .unconfigured) :
    s.completed.epochArrival.tx = s.completed.tx.withdraw (Body.isKind .claim)
      ∧ s.completed.epochArrival.tick = 0 ∧ s.completed.epochArrival.lastSent = 0
      ∧ s.completed.epochArrival.lastClaimed = none
      ∧ s.completed.epochArrival.responder
          = { s.responder with phase := s.responder.phase.rebase s.tick 0 }
      ∧ s.completed.epochArrival.table = s.table ∧ s.completed.epochArrival.orders = s.orders
      ∧ s.completed.epochArrival.flags = s.flags
      ∧ s.completed.epochArrival.counters
          = Counters.rise .claimsWithdrawn (s.completed.tx.withdrawnClaims (Body.isKind .claim))
              s.counters := by
  have hcompleted : s.completed.stepState ≠ .unconfigured := by simpa using hc
  have hresponder : s.completed.responder = s.responder := by simp
  rw [State.epochArrival_configured _ hcompleted]
  exact ⟨rfl, rfl, rfl, rfl, rfl, rfl, rfl, rfl, rfl⟩

/-- The history after an EPOCH, record by record in opening order (R18, R45). -/
theorem Table.epochEnds_history (a : Addr) (t : Table) : (t.epochEnds a).history =
    t.slots.foldl (fun h r => (if h.length < 16 then h else h.drop 1) ++ [r.droppedByEpoch a]) t.history := by
  simp only [Table.epochEnds, List.foldl_map, pushHistory_eq]

end Sys2Proof.Machine

/-! The three completions of an own ordered frame put together (O37). -/

namespace Sys2Proof.Machine

/-- Settles O37: the completion, then the application with the own address as sender, kind by kind. -/
theorem ownOrderedFrameIsApplied : Obligations.OwnOrderedFrameIsApplied := by
  intro s e hr ho hl he hs ha
  have hown : s.Completes e := ⟨hr, ho, hl, he, hs, ha⟩
  obtain ⟨conline, cdiscards, cyielding, crx, csent, ctable, ccounters, corders, cflags⟩ := s.completed_fields
  have cstill := s.completed_still
  have hwaiting : ∀ x ∈ s.tx.waiting, x ∈ s.completed.tx.outbox :=
    fun x hx => mem_admitOffers_of_mem s.tx.deferred _ x hx
  refine ⟨fun stamp epoch hb => ?_, fun n hb => ?_, fun hb => ?_⟩
  · -- the own CLAIM
    refine ⟨_, hown.exec_claim hb, ?_⟩
    obtain ⟨m, hm⟩ : ∃ m, m = s.completed.rise .claimsSent 1 := ⟨_, rfl⟩
    rw [← hm]
    have mtx : m.tx = s.completed.tx := by rw [hm]; rfl
    have mtable : m.table = s.table := by rw [hm]; exact ctable
    have mcounter : ∀ k, k ≠ .claimsSent → m.counter k = s.counter k := fun k hk => by
      rw [hm, State.counter_rise_other _ _ _ _ (Ne.symm hk), State.counter, ccounters]; rfl
    have msent : m.counter .claimsSent = satAdd16 (s.counter .claimsSent) 1 := by
      rw [hm, State.counter_rise_self, State.counter, ccounters]; rfl
    have mdue : m.openingDue s.addr stamp = s.openingDue s.addr stamp := by
      rw [hm]; simp [State.openingDue]
    obtain ⟨forders, fflags, -⟩ := State.applyFrame_claim_frame s.addr stamp epoch m
    obtain ⟨fkept, fnew⟩ := State.applyFrame_claim_outbox s.addr stamp epoch m
    have ftable := State.applyFrame_table s.addr (.claim stamp epoch) m
    dsimp only at ftable
    rw [mtable, mdue, show m.params = s.params by rw [hm]; simp] at ftable
    rw [mtx] at fkept fnew
    refine ⟨by simp [mtx, conline], by simp [mtx, cdiscards], by simp [mtx, cyielding], by simp [hm, crx],
      by simp [hm, csent], by simp [hm], fun x hx => ?_, fun x hx => fkept x (hwaiting x hx),
      fun hd x hx => ?_, fun hd hlen => ?_, ?_, ?_, ftable, ?_, ?_, by simp [hm], by simp [hm], by simp [hm],
      by simp [hm], by simp [hm], by simp [hm], fun hi hbox _ hlen => ?_⟩
    · rcases fnew x hx with hx | ⟨n, rfl⟩
      · exact cstill x hx
      · rfl
    · rcases fnew x hx with hx | hx
      · rw [(State.completed_outbox_of_nil hd).1] at hx; exact .inl hx
      · exact .inr hx
    · rw [State.applyFrame_claim_tx s.addr stamp epoch m (by rw [hlen, mtable]), mtx,
        (State.completed_outbox_of_nil hd).1]
    · rw [State.counter_applyFrame _ _ _ _ (by decide) (by decide) (by decide) (by decide), msent]
    · rw [(State.applyFrame_counters _ _ _).1, mcounter _ (by decide)]
    · rw [forders, hm]; exact corders
    · rw [fflags, hm]; exact cflags
    · exact (State.applyFrame_claim_reached s.addr stamp epoch m (by rw [hm]; simpa using hi)
        (by rw [mtx, mtable]; exact hbox.completed_closesName) (by rw [hlen, mtable])).1
  · -- the own CLOSE
    refine ⟨_, hown.exec_close hb, ?_⟩
    have ftx := State.applyFrame_close_tx s.addr n s.completed
    have ftable := State.applyFrame_table s.addr (.close n) s.completed
    dsimp only at ftable
    rw [ctable, show s.completed.params = s.params by simp] at ftable
    obtain ⟨fcount, fdigest, fnext, fepoch⟩ := Table.closed_frame s.params.q.toNat s.addr n
      s.completed.closeNote (s.table.advance (digestedBytes s.addr (.close n)))
    rw [← ftable] at fcount fdigest fnext fepoch
    refine ⟨by simp [conline], by simp [cdiscards], by simp [cyielding], by simp [crx], by simp [csent],
      by simp, ?_, fcount, fdigest, fun x hx => ?_, fun hd => ?_, fnext, fepoch, by simp, by simp, by simp,
      by simp, by simp, fun habsent => ?_, fun before r after hslots hbefore hnumber => ?_⟩
    · rw [(State.applyFrame_counters _ _ _).1, State.counter, ccounters]; rfl
    · rw [ftx] at hx
      obtain ⟨hstill, hbody, -⟩ := cstill.mem_withdraw _ hx
      exact ⟨hstill, by simpa using hbody⟩
    · obtain ⟨houtbox, hdeferred⟩ := State.completed_outbox_of_nil hd
      rw [ftx, (cstill.withdraw_of_nil _ hdeferred).1, houtbox]; rfl
    · obtain ⟨forders, fflags⟩ := State.applyFrame_close_absent s.addr n s.completed
        (by rw [ctable]; exact habsent)
      rw [ftable, Table.closed_of_absent _ _ _ _ (s.table.advance _) habsent]
      exact ⟨rfl, rfl, rfl, forders.trans corders, fflags.trans cflags⟩
    · have hnote : s.completed.closeNote r = if s.params.q.toNat ≤ r.members.length
          then (s.orderAnswer n).note else .noOrder := by
        simp [State.closeNote, EventRecord.meets, State.orderAnswer, hnumber]
      have horder : r.order = { number := n, epoch := r.epoch, t0 := r.t0, opener := r.opener,
                                members := r.members.length } := by rw [← hnumber]; rfl
      rw [ftable, Table.closed_of_found _ _ _ _ (s.table.advance _) before after r hslots hbefore hnumber]
      refine ⟨rfl, rfl, ?_, fun o hoffer => ?_⟩
      · simp only [pushHistory_eq, EventRecord.closed, EventRecord.meets, closeCause, hnote,
          decide_eq_true_eq]
        rfl
      · have hqueue := fun k => State.completed_close_found (o := o) n before after r hslots hbefore hnumber
          (by simpa only [EventRecord.meets, decide_eq_true_eq, horder] using hoffer) k
        obtain ⟨horders, hflags, hissued⟩ := hqueue .ordersIssued (by decide) (by decide)
        exact ⟨horders, hflags, hissued, (hqueue .ordersMissed (by decide) (by decide)).2.2⟩
  · -- the own EPOCH
    have hconf : s.stepState ≠ .unconfigured := fun hun => by simp [State.applies, hun] at ha
    refine ⟨_, hown.exec_epoch hb, ?_⟩
    obtain ⟨mtx, mtick, msent, mclaimed, mresponder, mtable, morders, mflags, mcounters⟩ :=
      State.completed_epochArrival hconf
    have mclaims : s.completed.tx.withdrawnClaims (Body.isKind .claim) = s.tx.countKind .claim :=
      (cstill.withdrawnClaims _ fun _ hc => hc).trans
        (hown.claims (by rw [hb]; rfl))
    rw [mclaims] at mcounters
    obtain ⟨ftx, fcounters, forders, fflags⟩ := State.applyFrame_epoch s.addr s.completed.epochArrival
      (by simpa [State.applies] using ha)
    have ftable := State.applyFrame_table s.addr .epoch s.completed.epochArrival
    dsimp only at ftable
    rw [mtable] at ftable
    rw [mtx] at ftx
    refine ⟨by simp [conline], by simp [cdiscards], by simp [cyielding], by simp [crx], by simp [msent],
      by simp [mtick], by simp [mclaimed], ?_, by rw [ftable]; rfl, by rw [ftable]; rfl, ?_,
      by rw [ftable]; rfl, by rw [ftable]; rfl, by rw [ftable]; rfl, ?_, by rw [ftable]; rfl,
      by rw [ftable]; rfl, by rw [ftable]; rfl, fun x hx => ?_, fun hd => ?_, forders.trans morders, by simp,
      fflags.trans mflags, by simp, by simp [mresponder], by simp, by simp⟩
    · rw [(State.applyFrame_counters _ _ _).1, State.counter, mcounters,
        Counters.read_rise_other _ _ _ _ (by decide)]; rfl
    · rw [State.counter, fcounters, mcounters, Counters.read_rise_other _ _ _ _ (by decide),
        Counters.read_rise_self]; rfl
    · rw [ftable, Table.epochEnds_history]; rfl
    · rw [ftx] at hx
      obtain ⟨hsending, hclaim, hclose, hfrom⟩ := cstill.mem_withdraw_withdraw _ _ hx
      exact ⟨hsending, hclaim, hclose, hown.noEpoch hb hfrom⟩
    · obtain ⟨houtbox, hdeferred⟩ := State.completed_outbox_of_nil hd
      obtain ⟨hfirst, hnil⟩ := cstill.withdraw_of_nil (Body.isKind .claim) hdeferred
      rw [ftx, ((cstill.withdraw _).withdraw_of_nil _ hnil).1, hfirst, houtbox, List.filter_filter]
      exact List.filter_congr fun x _ => Bool.and_comm _ _

end Sys2Proof.Machine

/-! The laws of the outbox as a list, and that every operation of the Transmitter keeps them (R68 to R72). -/

namespace Sys2Proof.Machine

/-! ### The entries (R68, R69) -/

/-- How many entries of a kind a list holds. -/
def kindCount (k : Kind) (es : List Entry) : Nat := (es.filter (fun e => e.body.isKind k)).length

/-- The laws of the admitted entries by themselves: the class limits, the order, and what an entry carries. -/
structure EntriesLaw (es : List Entry) : Prop where
  general : generalCount es ≤ Config.maxGeneral
  closes : kindCount .close es ≤ Config.maxClose
  single : ∀ k, k ≠ .claim → k ≠ .close → kindCount k es ≤ 1
  named : (es.filterMap (fun e => e.body.closeNumber)).Nodup
  sorted : es.Pairwise (fun a b => a.body.kind.code ≤ b.body.kind.code)
  carried : ∀ e ∈ es, e.attempts < Config.maxAttempts
    ∧ (e.mark = true → e.sending = true ∧ e.body.kind = .claim)

/-- Every entry is of a general place, a CLOSE, a CLEAR or an EPOCH (R68). -/
theorem length_eq_kindCounts (es : List Entry) :
    es.length = generalCount es + kindCount .close es + kindCount .clear es + kindCount .epoch es := by
  unfold generalCount kindCount
  induction es with
  | nil => rfl
  | cons e es ih =>
    simp only [List.filter_cons, List.length_cons]
    cases hb : e.body <;> simp [Body.isKind, Body.kind, Kind.general] at ih ⊢ <;> omega

theorem EntriesLaw.length_le {es : List Entry} (h : EntriesLaw es) : es.length ≤ 12 := by
  have hgeneral := h.general
  have hcloses := h.closes
  have hclear := h.single .clear (by decide) (by decide)
  have hepoch := h.single .epoch (by decide) (by decide)
  unfold Config.maxGeneral Config.maxClose at *
  rw [length_eq_kindCounts]
  omega

theorem EntriesLaw.nil : EntriesLaw [] :=
  ⟨by simp [generalCount], by simp [kindCount], fun _ _ _ => by simp [kindCount], List.nodup_nil,
    List.Pairwise.nil, by simp⟩

theorem EntriesLaw.sublist {es fs : List Entry} (h : EntriesLaw es) (hs : fs.Sublist es) : EntriesLaw fs :=
  ⟨((hs.filter _).length_le).trans h.general, ((hs.filter _).length_le).trans h.closes,
    fun k hc hl => ((hs.filter _).length_le).trans (h.single k hc hl), (hs.filterMap _).nodup h.named,
    h.sorted.sublist hs, fun e he => h.carried e (hs.subset he)⟩

theorem length_filter_body (p : Body → Bool) (es : List Entry) :
    (es.filter (fun e => p e.body)).length = ((es.map Entry.body).filter p).length := by
  rw [List.filter_map, List.length_map]; rfl

/-- The class limits and the order speak of the bodies alone. -/
theorem EntriesLaw.of_bodies {es fs : List Entry} (h : EntriesLaw es)
    (hb : fs.map Entry.body = es.map Entry.body)
    (hc : ∀ e ∈ fs, e.attempts < Config.maxAttempts
      ∧ (e.mark = true → e.sending = true ∧ e.body.kind = .claim)) : EntriesLaw fs := by
  have hcount : ∀ p : Body → Bool,
      (fs.filter (fun e => p e.body)).length = (es.filter (fun e => p e.body)).length := fun p => by
    rw [length_filter_body, length_filter_body, hb]
  have hnumbers : ∀ gs : List Entry,
      gs.filterMap (fun e => e.body.closeNumber) = (gs.map Entry.body).filterMap Body.closeNumber :=
    fun gs => by rw [List.filterMap_map]; rfl
  have hsorted : ∀ gs : List Entry, gs.Pairwise (fun a b => a.body.kind.code ≤ b.body.kind.code)
      ↔ (gs.map Entry.body).Pairwise (fun a b => a.kind.code ≤ b.kind.code) :=
    fun gs => by rw [List.pairwise_map]
  exact ⟨(hcount (fun b => b.kind.general)).trans_le h.general, (hcount (Body.isKind .close)).trans_le h.closes,
    fun k hk hl => (hcount (Body.isKind k)).trans_le (h.single k hk hl),
    by rw [hnumbers, hb, ← hnumbers]; exact h.named, by rw [hsorted, hb, ← hsorted]; exact h.sorted, hc⟩

/-- A change of entries that leaves the bodies keeps all but what an entry carries. -/
theorem EntriesLaw.map {es : List Entry} (h : EntriesLaw es) {f : Entry → Entry}
    (hf : ∀ e, (f e).body = e.body)
    (hc : ∀ e ∈ es, (f e).attempts < Config.maxAttempts
      ∧ ((f e).mark = true → (f e).sending = true ∧ e.body.kind = .claim)) : EntriesLaw (es.map f) := by
  refine h.of_bodies ?_ fun e he => ?_
  · rw [List.map_map]
    exact List.map_congr_left fun e _ => hf e
  · obtain ⟨x, hx, rfl⟩ := List.mem_map.mp he
    rw [hf]; exact hc x hx

theorem pairwise_insertEntry (e : Entry) (es : List Entry)
    (h : es.Pairwise (fun a b => a.body.kind.code ≤ b.body.kind.code)) :
    (insertEntry e es).Pairwise (fun a b => a.body.kind.code ≤ b.body.kind.code) := by
  induction es with
  | nil => simp [insertEntry]
  | cons x xs ih =>
    obtain ⟨hx, hxs⟩ := List.pairwise_cons.mp h
    unfold insertEntry
    split
    next hlt =>
      refine List.pairwise_cons.mpr ⟨fun y hy => ?_, h⟩
      have hle := BitVec.le_of_lt hlt
      rcases List.mem_cons.mp hy with rfl | hy
      · exact hle
      · exact BitVec.le_trans hle (hx y hy)
    next hlt =>
      refine List.pairwise_cons.mpr ⟨fun y hy => ?_, ih hxs⟩
      rcases (mem_insertEntry _ _ _).mp hy with rfl | hy
      · exact BitVec.not_lt.mp hlt
      · exact hx y hy

theorem kindCount_zero_iff (k : Kind) (es : List Entry) :
    kindCount k es = 0 ↔ ∀ e ∈ es, e.body.isKind k = false := by
  simp [kindCount, List.filter_eq_nil_iff]

/-- The body has a place: a general one is free for a general kind, a CLOSE place for a CLOSE whose number no
other names, and no other of a kind that stands once (R68). -/
structure Places (b : Body) (es : List Entry) : Prop where
  general : b.kind.general = true → generalCount es < Config.maxGeneral
  single : b.kind ≠ .claim → b.kind ≠ .close → es.any (fun e => e.body.isKind b.kind) = false
  closes : ∀ n, b = .close n → kindCount .close es < Config.maxClose
    ∧ es.any (fun e => e.body == .close n) = false

/-- An entry admitted afresh to a place it has keeps the laws (R68 to R70). -/
theorem EntriesLaw.insert {es : List Entry} (h : EntriesLaw es) {b : Body} (hp : Places b es) :
    EntriesLaw (insertEntry (Entry.fresh b) es) := by
  have hbody : (Entry.fresh b).body = b := rfl
  refine ⟨?_, ?_, fun k hk hl => ?_, ?_, pairwise_insertEntry _ _ h.sorted, fun e he => ?_⟩
  · rw [generalCount, countP_insertEntry, hbody]
    split
    next hg => have := hp.general hg; unfold generalCount at this; omega
    next => exact h.general
  · rw [kindCount, countP_insertEntry, hbody]
    split
    next hc =>
      obtain ⟨n, rfl⟩ : ∃ n, b = .close n := by
        cases b <;> simp [Body.isKind, Body.kind] at hc; exact ⟨_, rfl⟩
      have := (hp.closes n rfl).1; unfold kindCount at this; omega
    next => exact h.closes
  · rw [kindCount, countP_insertEntry, hbody]
    split
    next hb =>
      rw [Body.isKind, beq_iff_eq] at hb
      have hnone : kindCount k es = 0 := (kindCount_zero_iff k es).mpr fun e he => by
        have := hp.single (by rwa [hb]) (by rwa [hb])
        rw [hb, List.any_eq_false] at this
        simpa using this e he
      unfold kindCount at hnone; omega
    next => exact h.single k hk hl
  · rw [((insertEntry_perm _ _).filterMap _).nodup_iff, List.filterMap_cons, hbody]
    cases hn : b.closeNumber with
    | none => exact h.named
    | some n =>
      have hb : b = .close n := by cases b <;> simp [Body.closeNumber] at hn; rw [hn]
      refine List.nodup_cons.mpr ⟨fun hmem => ?_, h.named⟩
      obtain ⟨e, he, hen⟩ := List.mem_filterMap.mp hmem
      have hfree := List.any_eq_false.mp (hp.closes n hb).2 e he
      cases hx : e.body <;> rw [hx] at hen hfree <;> simp [Body.closeNumber] at hen
      exact hfree (by simp [hen])
  · rcases (mem_insertEntry _ _ _).mp he with rfl | he
    · exact ⟨by simp [Entry.fresh, Config.maxAttempts], by simp [Entry.fresh]⟩
    · exact h.carried e he

/-! ### The deferred offers (R71) -/

/-- The laws of the deferred offers beside the entries: each of a kind that is offered and of which no entry
stands, in kind order. -/
structure OffersLaw (bs : List Body) (es : List Entry) : Prop where
  kinds : ∀ b ∈ bs, (b.kind = .state ∨ b.kind = .stateReq ∨ b.kind = .presence)
    ∧ es.any (fun e => e.body.isKind b.kind) = false
  sorted : bs.Pairwise (fun a b => a.kind.code < b.kind.code)

theorem OffersLaw.nil (es : List Entry) : OffersLaw [] es := ⟨by simp, List.Pairwise.nil⟩

/-- Fewer offers beside entries of no other kind. -/
theorem OffersLaw.mono {bs cs : List Body} {es fs : List Entry} (h : OffersLaw bs es) (hs : cs.Sublist bs)
    (hk : ∀ e ∈ fs, ∃ x ∈ es, x.body = e.body) : OffersLaw cs fs := by
  refine ⟨fun b hb => ?_, h.sorted.sublist hs⟩
  obtain ⟨hkind, hfree⟩ := h.kinds b (hs.subset hb)
  refine ⟨hkind, List.any_eq_false.mpr fun e he => ?_⟩
  obtain ⟨x, hx, hbody⟩ := hk e he
  rw [← hbody]
  exact List.any_eq_false.mp hfree x hx

/-- An offer of a kind of which none stands has a place while a general one is free. -/
theorem Places.of_offer {b : Body} {es : List Entry}
    (hk : b.kind = .state ∨ b.kind = .stateReq ∨ b.kind = .presence)
    (hf : es.any (fun e => e.body.isKind b.kind) = false) (hg : generalCount es < Config.maxGeneral) :
    Places b es :=
  ⟨fun _ => hg, fun _ _ => hf, fun n hb => by rw [hb] at hk; rcases hk with h | h | h <;> cases h⟩

/-- The admission of deferred offers keeps the laws, and leaves offers deferred only while no general place is
free (R71). -/
theorem admitOffers_law {bs : List Body} {es : List Entry} (he : EntriesLaw es) (ho : OffersLaw bs es) :
    EntriesLaw (admitOffers bs es).1 ∧ OffersLaw (admitOffers bs es).2 (admitOffers bs es).1
      ∧ ((admitOffers bs es).2 ≠ [] → generalCount (admitOffers bs es).1 = Config.maxGeneral) := by
  induction bs generalizing es with
  | nil => exact ⟨he, ho, by simp [admitOffers]⟩
  | cons b bs ih =>
    unfold admitOffers
    split
    next hroom =>
      obtain ⟨hkind, hfree⟩ := ho.kinds b (by simp)
      obtain ⟨hfirst, hrest⟩ := List.pairwise_cons.mp ho.sorted
      refine ih (he.insert (Places.of_offer hkind hfree hroom)) ⟨fun c hc => ?_, hrest⟩
      obtain ⟨hckind, hcfree⟩ := ho.kinds c (by simp [hc])
      refine ⟨hckind, List.any_eq_false.mpr fun e he => ?_⟩
      rcases (mem_insertEntry _ _ _).mp he with rfl | he
      · intro hsame
        have hkinds : b.kind = c.kind := by simpa [Entry.fresh, Body.isKind] using hsame
        have hlt := hfirst c hc
        rw [hkinds] at hlt
        exact BitVec.lt_irrefl _ hlt
      · exact List.any_eq_false.mp hcfree e he
    next hfull =>
      have := he.general
      exact ⟨he, ho, fun _ => by dsimp only; omega⟩

/-- An admission leaves the number of entries in transmission. -/
theorem sending_admitOffers (bs : List Body) (es : List Entry) :
    ((admitOffers bs es).1.filter Entry.sending).length = (es.filter Entry.sending).length := by
  induction bs generalizing es with
  | nil => rfl
  | cons b bs ih =>
    unfold admitOffers
    split
    · rw [ih, countP_insertEntry]; simp [Entry.fresh]
    · rfl

/-- An admission moves offers into the outbox, and each kind stands after it where it stood before. -/
theorem queued_admitOffers (k : Kind) (bs : List Body) (es : List Entry) :
    ((admitOffers bs es).1.any (fun e => e.body.isKind k) || (admitOffers bs es).2.any (Body.isKind k))
      = (es.any (fun e => e.body.isKind k) || bs.any (Body.isKind k)) := by
  have htotal := admitOffers_kindTotal k bs es
  have hany : ∀ (fs : List Entry) (cs : List Body),
      (fs.any (fun e => e.body.isKind k) || cs.any (Body.isKind k)) = true
        ↔ (fs.filter (fun e => e.body.isKind k)).length + (cs.filter (Body.isKind k)).length ≠ 0 := by
    intro fs cs
    simp only [Bool.or_eq_true, List.any_eq_true, ne_eq, Nat.add_eq_zero_iff, List.length_eq_zero_iff,
      List.filter_eq_nil_iff, not_and_or, not_forall, exists_prop, not_not]
  rw [Bool.eq_iff_iff, hany, hany, htotal]

/-! ### The Transmitter -/

/-- The laws of the Transmitter while a general place may be free beside deferred offers, as in the middle of
an operation. -/
structure Transmitter.Loose (t : Transmitter) : Prop where
  entries : EntriesLaw t.outbox
  offers : OffersLaw t.deferred t.outbox
  sending : (t.outbox.filter Entry.sending).length = (if t.onLine.isSome then 1 else 0)
  discards : t.discards < Config.maxDiscards

theorem Transmitter.law_iff (t : Transmitter) :
    t.Law ↔ t.Loose ∧ (t.deferred ≠ [] → generalCount t.outbox = Config.maxGeneral) := by
  constructor
  · rintro ⟨-, hgeneral, hcloses, hepoch, hclear, hstate, hreq, hpresence, hnamed, hsorted, hcarried, hsending,
      hkinds, horder, hfull, hdiscards⟩
    refine ⟨⟨⟨hgeneral, hcloses, fun k hc hl => ?_, hnamed, hsorted, hcarried⟩, ⟨hkinds, horder⟩, hsending,
      hdiscards⟩, hfull⟩
    cases k with
    | claim => exact absurd rfl hc
    | close => exact absurd rfl hl
    | epoch => exact hepoch
    | clear => exact hclear
    | state => exact hstate
    | stateReq => exact hreq
    | presence => exact hpresence
  · rintro ⟨⟨he, ho, hsending, hdiscards⟩, hfull⟩
    have hsingle := he.single
    exact ⟨he.length_le, he.general, he.closes, hsingle .epoch (by decide) (by decide),
      hsingle .clear (by decide) (by decide), hsingle .state (by decide) (by decide),
      hsingle .stateReq (by decide) (by decide), hsingle .presence (by decide) (by decide), he.named, he.sorted,
      he.carried, hsending, ho.kinds, ho.sorted, hfull, hdiscards⟩

theorem Transmitter.Law.loose {t : Transmitter} (h : t.Law) : t.Loose := ((t.law_iff).mp h).1

theorem Transmitter.Law.full {t : Transmitter} (h : t.Law) :
    t.deferred ≠ [] → generalCount t.outbox = Config.maxGeneral := ((t.law_iff).mp h).2

theorem Transmitter.Loose.admitDeferred {t : Transmitter} (h : t.Loose) : t.admitDeferred.Law := by
  obtain ⟨hentries, hoffers, hfull⟩ := admitOffers_law h.entries h.offers
  refine (Transmitter.law_iff _).mpr ⟨⟨hentries, hoffers, ?_, h.discards⟩, hfull⟩
  exact (sending_admitOffers _ _).trans h.sending

@[simp] theorem Transmitter.admitDeferred_queued (k : Kind) (t : Transmitter) :
    t.admitDeferred.queued k = t.queued k := queued_admitOffers k t.deferred t.outbox

/-- What an admission leaves in the outbox and among the deferred offers. -/
theorem Transmitter.mem_admitDeferred {t : Transmitter} {e : Entry} (h : e ∈ t.admitDeferred.outbox) :
    e ∈ t.outbox ∨ ∃ b ∈ t.deferred, e = Entry.fresh b := mem_admitOffers _ _ _ h

/-- The law reads all of the Transmitter but the break, the yield and the recessive count. -/
theorem Transmitter.Law.congr {t u : Transmitter} (h : t.Law) (ho : u.outbox = t.outbox)
    (hd : u.deferred = t.deferred) (hl : u.onLine.isSome = t.onLine.isSome)
    (hc : u.discards < Config.maxDiscards) : u.Law := by
  obtain ⟨⟨hentries, hoffers, hsending, -⟩, hfull⟩ := (t.law_iff).mp h
  exact (u.law_iff).mpr ⟨⟨ho ▸ hentries, by rw [ho, hd]; exact hoffers, by rw [ho, hl]; exact hsending, hc⟩,
    by rw [ho, hd]; exact hfull⟩

/-- An empty outbox is lawful with nothing on the line. -/
theorem Transmitter.Law.of_empty {t : Transmitter} (ho : t.outbox = []) (hd : t.deferred = [])
    (hl : t.onLine = none) (hc : t.discards < Config.maxDiscards) : t.Law := by
  refine (t.law_iff).mpr ⟨⟨ho ▸ EntriesLaw.nil, ?_, by simp [ho, hl], hc⟩, by simp [hd]⟩
  rw [hd]; exact OffersLaw.nil _

theorem sending_insertEntry (b : Body) (es : List Entry) :
    ((insertEntry (Entry.fresh b) es).filter Entry.sending).length = (es.filter Entry.sending).length := by
  rw [countP_insertEntry]; simp [Entry.fresh]

/-- An entry of a kind that is not deferred is admitted to a place it has (R68, R70). -/
theorem Transmitter.Law.admitEntry {t : Transmitter} (h : t.Law) {b : Body} (hp : Places b t.outbox)
    (hk : t.deferred.any (Body.isKind b.kind) = false)
    (hg : b.kind.general = true → t.deferred = []) : (t.admitEntry b).Law := by
  refine (Transmitter.law_iff _).mpr ⟨⟨h.loose.entries.insert hp, ⟨fun c hc => ?_, h.loose.offers.sorted⟩, ?_,
    h.loose.discards⟩, fun hd => ?_⟩
  · obtain ⟨hkind, hfree⟩ := h.loose.offers.kinds c hc
    refine ⟨hkind, List.any_eq_false.mpr fun e he => ?_⟩
    rcases (mem_insertEntry _ _ _).mp he with rfl | he
    · intro hsame
      have hkinds : b.kind = c.kind := by simpa [Entry.fresh, Body.isKind] using hsame
      exact List.any_eq_false.mp hk c hc (by simp [Body.isKind, hkinds])
    · exact List.any_eq_false.mp hfree e he
  · exact (sending_insertEntry _ _).trans h.loose.sending
  · have hnot : b.kind.general = false := by
      rw [← Bool.not_eq_true]; exact fun hgen => hd (hg hgen)
    have hcount : generalCount (t.admitEntry b).outbox = generalCount t.outbox := by
      rw [generalCount, Transmitter.admitEntry, countP_insertEntry]
      simp [Entry.fresh, hnot, generalCount]
    rw [hcount]; exact h.full hd

theorem Kind.code_injective (j k : Kind) (h : j.code = k.code) : j = k := by
  cases j <;> cases k <;> simp [Kind.code] at h ⊢

theorem pairwise_insertOffer {b : Body} {bs : List Body} (hn : ∀ c ∈ bs, c.kind ≠ b.kind)
    (h : bs.Pairwise (fun a b => a.kind.code < b.kind.code)) :
    (insertOffer b bs).Pairwise (fun a b => a.kind.code < b.kind.code) := by
  induction bs with
  | nil => simp [insertOffer]
  | cons x xs ih =>
    obtain ⟨hx, hxs⟩ := List.pairwise_cons.mp h
    unfold insertOffer
    split
    next hlt =>
      refine List.pairwise_cons.mpr ⟨fun y hy => ?_, h⟩
      rcases List.mem_cons.mp hy with rfl | hy
      · exact hlt
      · exact BitVec.lt_trans hlt (hx y hy)
    next hlt =>
      refine List.pairwise_cons.mpr ⟨fun y hy => ?_, ih (fun c hc => hn c (by simp [hc])) hxs⟩
      rcases (mem_insertOffer _ _ _).mp hy with rfl | hy
      · exact BitVec.lt_of_le_ne (BitVec.not_lt.mp hlt) fun he => hn x (by simp) (Kind.code_injective _ _ he)
      · exact hx y hy

/-- An offer keeps the laws (R70, R71). -/
theorem Transmitter.Law.offer {t : Transmitter} (h : t.Law) {b : Body}
    (hk : b.kind = .state ∨ b.kind = .stateReq ∨ b.kind = .presence) : (t.offer b).Law := by
  unfold Transmitter.offer
  split
  next => exact h
  next hq =>
  simp only [Transmitter.queued, Transmitter.holds, Bool.not_eq_true, Bool.or_eq_false_iff] at hq
  obtain ⟨hadmitted, hdeferred⟩ := hq
  split
  next hroom =>
    exact h.admitEntry (Places.of_offer hk hadmitted hroom) hdeferred fun _ => by
      by_contra hd
      have := h.full hd
      omega
  next hroom =>
    have hlimit := h.loose.entries.general
    refine (Transmitter.law_iff _).mpr ⟨⟨h.loose.entries, ⟨fun c hc => ?_, ?_⟩, h.loose.sending,
      h.loose.discards⟩, fun _ => by dsimp only; omega⟩
    · rcases (mem_insertOffer _ _ _).mp hc with rfl | hc
      · exact ⟨hk, hadmitted⟩
      · exact h.loose.offers.kinds c hc
    · refine pairwise_insertOffer (fun c hc he => ?_) h.loose.offers.sorted
      exact List.any_eq_false.mp hdeferred c hc (by simp [Body.isKind, he])

theorem any_insertEntry (p : Entry → Bool) (e : Entry) (es : List Entry) :
    (insertEntry e es).any p = (p e || es.any p) := by
  rw [Bool.eq_iff_iff]
  simp only [List.any_eq_true, Bool.or_eq_true, mem_insertEntry, exists_eq_or_imp]

theorem any_insertOffer (p : Body → Bool) (b : Body) (bs : List Body) :
    (insertOffer b bs).any p = (p b || bs.any p) := by
  rw [Bool.eq_iff_iff]
  simp only [List.any_eq_true, Bool.or_eq_true, mem_insertOffer, exists_eq_or_imp]

/-- After an offer its kind stands, and every other stands as before. -/
@[simp] theorem Transmitter.offer_queued (k : Kind) (b : Body) (t : Transmitter) :
    (t.offer b).queued k = (b.isKind k || t.queued k) := by
  unfold Transmitter.offer
  split
  next hq =>
    by_cases hk : b.kind = k
    · rw [← hk, hq]; simp
    · simp [Body.isKind, hk]
  next =>
    split
    · simp [Transmitter.queued, Transmitter.holds, Transmitter.admitEntry, any_insertEntry, Entry.fresh,
        Bool.or_assoc]
    · simp [Transmitter.queued, Transmitter.holds, any_insertOffer, Bool.or_left_comm]

/-- An offer brings its own body alone. -/
theorem Transmitter.mem_offer {t : Transmitter} {b : Body} {e : Entry} (h : e ∈ (t.offer b).outbox) :
    e = Entry.fresh b ∨ e ∈ t.outbox := by
  unfold Transmitter.offer at h
  split at h
  · exact .inr h
  · split at h
    · exact (mem_insertEntry _ _ _).mp h
    · exact .inr h

/-! ### Withdrawals (R72) -/

/-- A withdrawal request finds none of the entries it names in transmission, but a CLAIM: the one kind an entry
of which takes the withdrawal mark (R72, R83). -/
def Transmitter.Withdrawable (p : Body → Bool) (t : Transmitter) : Prop :=
  ∀ e ∈ t.outbox, e.sending = true → p e.body = true → e.body.kind = .claim

theorem Transmitter.Still.withdrawable {t : Transmitter} (h : t.Still) (p : Body → Bool) : t.Withdrawable p :=
  fun e he hs => by rw [h e he] at hs; cases hs

/-- The transmitter of a withdrawal before deferred offers are admitted. -/
def Transmitter.withdrawn (p : Body → Bool) (t : Transmitter) : Transmitter :=
  { t with
    outbox   := (t.outbox.filter (fun e => !p e.body || e.sending)).map
                  (fun e => if p e.body then { e with mark := true } else e)
    deferred := t.deferred.filter (fun b => !p b) }

theorem Transmitter.withdraw_eq (p : Body → Bool) (t : Transmitter) :
    t.withdraw p = (t.withdrawn p).admitDeferred := rfl

theorem Transmitter.mem_withdrawn {p : Body → Bool} {t : Transmitter} {e : Entry}
    (h : e ∈ (t.withdrawn p).outbox) :
    ∃ x ∈ t.outbox, x.body = e.body ∧ x.sending = e.sending ∧ (p x.body = false ∨ x.sending = true) := by
  obtain ⟨x, hx, rfl⟩ := List.mem_map.mp h
  obtain ⟨hmem, hkeep⟩ := List.mem_filter.mp hx
  refine ⟨x, hmem, ?_, ?_, by simpa using hkeep⟩ <;> split <;> rfl

/-- A withdrawal leaves the number of entries in transmission. -/
theorem Transmitter.sending_withdrawn (p : Body → Bool) (t : Transmitter) :
    ((t.withdrawn p).outbox.filter Entry.sending).length = (t.outbox.filter Entry.sending).length := by
  have hmap : ∀ e : Entry, (if p e.body then { e with mark := true } else e).sending = e.sending :=
    fun e => by split <;> rfl
  have hfilter : ((t.outbox.filter (fun e => !p e.body || e.sending)).filter Entry.sending)
      = t.outbox.filter Entry.sending := by
    rw [List.filter_filter]
    refine List.filter_congr fun e _ => ?_
    cases e.sending <;> simp
  rw [Transmitter.withdrawn, List.filter_map, List.length_map, ← hfilter]
  congr 2
  funext e
  exact hmap e

theorem Transmitter.Law.withdrawn {t : Transmitter} (h : t.Law) {p : Body → Bool} (hp : t.Withdrawable p) :
    (t.withdrawn p).Loose := by
  refine ⟨?_, ?_, (t.sending_withdrawn p).trans h.loose.sending, h.loose.discards⟩
  · refine (h.loose.entries.sublist List.filter_sublist).map (fun e => by split <;> rfl) fun e he => ?_
    obtain ⟨hmem, hkeep⟩ := List.mem_filter.mp he
    obtain ⟨hattempts, hmark⟩ := h.loose.entries.carried e hmem
    split
    next hpe =>
      have hsending : e.sending = true := by simpa [hpe] using hkeep
      exact ⟨hattempts, fun _ => ⟨hsending, hp e hmem hsending hpe⟩⟩
    next => exact ⟨hattempts, hmark⟩
  · refine h.loose.offers.mono List.filter_sublist fun e he => ?_
    obtain ⟨x, hx, hbody, -⟩ := Transmitter.mem_withdrawn he
    exact ⟨x, hx, hbody⟩

/-- A withdrawal keeps the laws (R71, R72). -/
theorem Transmitter.Law.withdraw {t : Transmitter} (h : t.Law) {p : Body → Bool} (hp : t.Withdrawable p) :
    (t.withdraw p).Law := (h.withdrawn hp).admitDeferred

/-- A kind that a withdrawal does not name stands after it where it stood before. -/
theorem Transmitter.withdraw_queued_other {p : Body → Bool} (k : Kind) (t : Transmitter)
    (hp : ∀ b, b.isKind k = true → p b = false) : (t.withdraw p).queued k = t.queued k := by
  rw [Transmitter.withdraw_eq, Transmitter.admitDeferred_queued]
  simp only [Transmitter.queued, Transmitter.holds]
  congr 1
  · rw [Bool.eq_iff_iff, List.any_eq_true, List.any_eq_true]
    constructor
    · rintro ⟨e, he, hk⟩
      obtain ⟨x, hx, hbody, -⟩ := Transmitter.mem_withdrawn he
      exact ⟨x, hx, by rwa [hbody]⟩
    · rintro ⟨e, he, hk⟩
      have hpe := hp _ hk
      refine ⟨e, List.mem_map.mpr ⟨e, List.mem_filter.mpr ⟨he, by simp [hpe]⟩, by simp [hpe]⟩, hk⟩
  · rw [Bool.eq_iff_iff, List.any_eq_true, List.any_eq_true]
    constructor
    · rintro ⟨b, hb, hk⟩
      exact ⟨b, (List.mem_filter.mp hb).1, hk⟩
    · rintro ⟨b, hb, hk⟩
      exact ⟨b, List.mem_filter.mpr ⟨hb, by simp [hp _ hk]⟩, hk⟩

/-- A kind that a withdrawal names does not stand after it, while nothing is in transmission. -/
theorem Transmitter.Still.withdraw_queued_named {p : Body → Bool} {t : Transmitter} (h : t.Still) (k : Kind)
    (hp : ∀ b, b.isKind k = true → p b = true) : (t.withdraw p).queued k = false := by
  simp only [Transmitter.queued, Transmitter.holds, Bool.or_eq_false_iff, List.any_eq_false]
  refine ⟨fun e he hk => ?_, fun b hb hk => ?_⟩
  · obtain ⟨-, hnot, -⟩ := h.mem_withdraw p he
    rw [hp _ hk] at hnot; cases hnot
  · obtain ⟨-, hnot⟩ := Transmitter.withdraw_deferred_subset p t b hb
    rw [hp _ hk] at hnot; cases hnot

/-- What a withdrawal leaves: bodies that stood, admitted or deferred. -/
theorem Transmitter.mem_withdraw {p : Body → Bool} {t : Transmitter} {e : Entry}
    (h : e ∈ (t.withdraw p).outbox) :
    (∃ x ∈ t.outbox, x.body = e.body ∧ x.sending = e.sending ∧ (p x.body = false ∨ x.sending = true))
      ∨ ∃ b ∈ t.deferred, e = Entry.fresh b := by
  rcases Transmitter.mem_admitDeferred h with h | ⟨b, hb, rfl⟩
  · exact .inl (Transmitter.mem_withdrawn h)
  · exact .inr ⟨b, (List.mem_filter.mp hb).1, rfl⟩

/-! ### The end of a transmission (R56, R58, R59, R61) -/

/-- A completion or a discard keeps the laws: the entry in transmission leaves. -/
theorem Transmitter.Law.dropSending {t : Transmitter} (h : t.Law) : t.dropSending.Law := by
  refine Transmitter.Loose.admitDeferred (t := { t with outbox := _, onLine := none })
    ⟨h.loose.entries.sublist List.filter_sublist, ?_, by simp, h.loose.discards⟩
  exact h.loose.offers.mono (List.Sublist.refl _) fun e he => ⟨e, (List.mem_filter.mp he).1, rfl⟩

theorem Transmitter.Law.returnSending {t : Transmitter} (h : t.Law) {f : Entry → Entry}
    (hb : ∀ e, (f e).body = e.body) (hm : ∀ e, (f e).mark = e.mark)
    (ha : ∀ e ∈ t.outbox, e.sending = true → (f e).attempts < Config.maxAttempts) :
    (t.returnSending f).Law := by
  have hbody : ∀ e : Entry, (if e.sending then { f e with sending := false } else e).body = e.body :=
    fun e => by split <;> simp [hb]
  refine Transmitter.Loose.admitDeferred (t := { t with outbox := _, onLine := none })
    ⟨(h.loose.entries.sublist List.filter_sublist).map hbody fun e he => ?_, ?_, ?_, h.loose.discards⟩
  · obtain ⟨hmem, hkeep⟩ := List.mem_filter.mp he
    obtain ⟨hattempts, hmark⟩ := h.loose.entries.carried e hmem
    split
    next hs =>
      have hunmarked : e.mark = false := by simpa [hs] using hkeep
      exact ⟨ha e hmem hs, by simp [hm, hunmarked]⟩
    next => exact ⟨hattempts, hmark⟩
  · refine h.loose.offers.mono (List.Sublist.refl _) fun e he => ?_
    obtain ⟨x, hx, rfl⟩ := List.mem_map.mp he
    exact ⟨x, (List.mem_filter.mp hx).1, (hbody x).symm⟩
  · simp only [Option.isSome_none, Bool.false_eq_true, if_false, List.length_eq_zero_iff,
      List.filter_eq_nil_iff]
    intro e he
    obtain ⟨x, -, rfl⟩ := List.mem_map.mp he
    split <;> simp_all

/-- The start of the head keeps the laws while nothing is in transmission (R54, R55). -/
theorem Transmitter.Law.startHead {t u : Transmitter} {e : Entry} {rest : List Entry} {f : Frame} (h : t.Law)
    (he : t.outbox = e :: rest) (hl : t.onLine = none) (ho : u.outbox = { e with sending := true } :: rest)
    (hu : u.onLine = some f) (hd : u.deferred = t.deferred) (hc : u.discards = t.discards) : u.Law := by
  have hstill := h.still hl
  obtain ⟨⟨hentries, hoffers, -, hdiscards⟩, hfull⟩ := (t.law_iff).mp h
  rw [he] at hentries hoffers hfull
  refine (u.law_iff).mpr ⟨⟨hentries.of_bodies (by rw [ho]; rfl) fun x hx => ?_, ?_, ?_, by rwa [hc]⟩, ?_⟩
  · rw [ho] at hx
    rcases List.mem_cons.mp hx with rfl | hx
    · obtain ⟨hattempts, hmark⟩ := hentries.carried e (by simp)
      exact ⟨hattempts, fun hm => ⟨rfl, (hmark hm).2⟩⟩
    · exact hentries.carried x (by simp [hx])
  · rw [hd, ho]
    refine hoffers.mono (List.Sublist.refl _) fun x hx => ?_
    rcases List.mem_cons.mp hx with rfl | hx
    · exact ⟨e, by simp, rfl⟩
    · exact ⟨x, by simp [hx], rfl⟩
  · have hrest : rest.filter Entry.sending = [] :=
      List.filter_eq_nil_iff.mpr fun x hx => by simp [hstill x (by rw [he]; simp [hx])]
    rw [ho, hu]
    simp [hrest]
  · have hcount : ∀ es : List Entry, generalCount es
        = ((es.map Entry.body).filter (fun b => b.kind.general)).length :=
      fun es => length_filter_body (fun b => b.kind.general) es
    rw [hd, ho, hcount]
    intro hne
    have := hfull hne
    rwa [hcount] at this

/-! ### The Close Scheduler (R32) -/

/-- Queueing CLOSE entries keeps the laws: within the class limit, and none for a number that one names. -/
theorem Transmitter.Law.scheduleCloses {t : Transmitter} (h : t.Law) (now : Tick) (rs : List EventRecord) :
    (Transmitter.scheduleCloses now rs t).Law := by
  induction rs generalizing t with
  | nil => exact h
  | cons r rs ih =>
    unfold Transmitter.scheduleCloses
    refine ih ?_
    split
    next hc =>
      simp only [Bool.and_eq_true, Bool.not_eq_true', decide_eq_true_eq] at hc
      obtain ⟨⟨-, hfree⟩, hroom⟩ := hc
      refine h.admitEntry ⟨by simp [Body.kind, Kind.general], by simp [Body.kind], fun n hn => ?_⟩ ?_
        (by simp [Body.kind, Kind.general])
      · cases hn; exact ⟨hroom, hfree⟩
      · refine List.any_eq_false.mpr fun b hb hk => ?_
        rw [Body.isKind, beq_iff_eq] at hk
        rcases h.deferred_kind b hb with hd | hd | hd <;> rw [hd] at hk <;> cases hk
    next => exact h

@[simp] theorem Transmitter.scheduleCloses_queued (k : Kind) (hk : k ≠ .close) (now : Tick)
    (rs : List EventRecord) (t : Transmitter) :
    (Transmitter.scheduleCloses now rs t).queued k = t.queued k := by
  induction rs generalizing t with
  | nil => rfl
  | cons r rs ih =>
    unfold Transmitter.scheduleCloses
    rw [ih]
    split
    · have hother : (Body.close r.number).isKind k = false := by
        simpa [Body.isKind, Body.kind] using hk.symm
      simp [Transmitter.queued, Transmitter.holds, Transmitter.admitEntry, any_insertEntry, Entry.fresh,
        hother]
    · rfl

/-- What the Close Scheduler brings: a CLOSE for a record it looks at. -/
theorem mem_scheduleCloses_names {now : Tick} {rs : List EventRecord} {t : Transmitter} {e : Entry}
    (h : e ∈ (Transmitter.scheduleCloses now rs t).outbox) :
    e ∈ t.outbox ∨ ∃ r ∈ rs, reachedOpt now r.due = true ∧ e = Entry.fresh (.close r.number) := by
  induction rs generalizing t with
  | nil => exact .inl h
  | cons r rs ih =>
    unfold Transmitter.scheduleCloses at h
    rcases ih h with h | ⟨q, hq, hdue, rfl⟩
    · split at h
      next hc =>
        simp only [Bool.and_eq_true] at hc
        rcases (mem_insertEntry _ _ _).mp h with rfl | h
        · exact .inr ⟨r, by simp, hc.1.1, rfl⟩
        · exact .inl h
      next => exact .inl h
    · exact .inr ⟨q, by simp [hq], hdue, rfl⟩

end Sys2Proof.Machine

/-! The law of the outbox at a station: what each operation of the Engine, the Resync Unit and the Step Monitor
makes of it (R32, R33, R55, R68, R107, R128). -/

namespace Sys2Proof.Machine

/-! ### The law with what it reads of the station as parameters -/

/-- The request of the present attempt waits to be sent (R106, R107). -/
def RequesterPhase.unsent : RequesterPhase → Bool
  | .requesting Option.none => true
  | .none | .requesting (some _) | .receiving _ | .retryWait _ => false

theorem RequesterPhase.unsent_iff (p : RequesterPhase) : p.unsent = true ↔ p = .requesting Option.none := by
  cases p with
  | requesting d => cases d <;> simp [RequesterPhase.unsent]
  | none => simp [RequesterPhase.unsent]
  | receiving c => simp [RequesterPhase.unsent]
  | retryWait d => simp [RequesterPhase.unsent]

@[simp] theorem RequesterPhase.unsent_none : RequesterPhase.none.unsent = false := rfl
@[simp] theorem RequesterPhase.unsent_receiving (c : Receiving) :
    (RequesterPhase.receiving c).unsent = false := rfl
@[simp] theorem RequesterPhase.unsent_retryWait (d : Tick) : (RequesterPhase.retryWait d).unsent = false := rfl

theorem RequesterPhase.unsent_eq_false {p : RequesterPhase} (h : p ≠ .requesting Option.none) :
    p.unsent = false := by
  rw [← Bool.not_eq_true, RequesterPhase.unsent_iff]; exact h

@[simp] theorem RequesterPhase.unsent_rebase (old new : Tick) (p : RequesterPhase) :
    (p.rebase old new).unsent = p.unsent := by
  cases p with
  | requesting d => cases d <;> rfl
  | none => rfl
  | receiving c => rfl
  | retryWait d => rfl

@[simp] theorem ResponderPhase.isSending_rebase (old new : Tick) (p : ResponderPhase) :
    (p.rebase old new).isSending = p.isSending := by
  cases p <;> rfl

/-- Every CLOSE entry names a record of the list (R33). -/
def Transmitter.NamesIn (slots : List EventRecord) (t : Transmitter) : Prop :=
  ∀ e ∈ t.outbox, ∀ n, e.body = .close n → ∃ r ∈ slots, r.number = n

/-- The Transmitter fits a station in step state `step` with the open records `slots`, a snapshot being sent or
not, and a request waiting to be sent or not: the law of the outbox by its parts. -/
structure Transmitter.Fits (step : StepState) (serves asks : Bool) (slots : List EventRecord)
    (t : Transmitter) : Prop where
  law : t.Law
  quiet : step ≠ .inStep → step ≠ .outOfStep → t.outbox = [] ∧ t.deferred = []
  side : step ≠ .inStep → ∀ e ∈ t.outbox, e.body.kind.ordered = false
  state : t.queued .state = serves
  request : t.queued .stateReq = asks
  names : t.NamesIn slots

theorem State.outboxLaw_iff (s : State) : s.OutboxLaw ↔
    s.tx.Fits s.stepState s.responder.phase.isSending s.requester.phase.unsent s.table.slots := by
  have hquiet : (s.transmits = false → s.tx.outbox = [] ∧ s.tx.deferred = [])
      ↔ (s.stepState ≠ .inStep → s.stepState ≠ .outOfStep → s.tx.outbox = [] ∧ s.tx.deferred = []) := by
    simp [State.transmits]
  have hrequest : (s.tx.queued .stateReq = true ↔ s.requester.phase = .requesting none)
      ↔ s.tx.queued .stateReq = s.requester.phase.unsent := by
    rw [← RequesterPhase.unsent_iff]
    exact Bool.eq_iff_iff.symm
  have hnames : (∀ e ∈ s.tx.outbox,
      e.body.closeNumber.all (fun n => s.table.slots.any (fun r => r.number == n)) = true)
        ↔ s.tx.NamesIn s.table.slots := by
    refine forall₂_congr fun e _ => ?_
    cases hb : e.body <;> simp [Body.closeNumber]
  unfold State.OutboxLaw
  rw [hquiet, hrequest, hnames]
  exact ⟨fun ⟨a, b, c, d, e, f⟩ => ⟨a, b, c, d, e, f⟩, fun ⟨a, b, c, d, e, f⟩ => ⟨a, b, c, d, e, f⟩⟩

section Fits

variable {step : StepState} {serves asks : Bool} {slots : List EventRecord} {t : Transmitter}

theorem Transmitter.Fits.congr {u : Transmitter} (h : t.Fits step serves asks slots)
    (ho : u.outbox = t.outbox) (hd : u.deferred = t.deferred) (hl : u.onLine.isSome = t.onLine.isSome)
    (hc : u.discards < Config.maxDiscards) : u.Fits step serves asks slots := by
  have hqueued : ∀ k, u.queued k = t.queued k := fun k => by
    rw [Transmitter.queued, Transmitter.queued, Transmitter.holds, Transmitter.holds, ho, hd]
  exact ⟨h.law.congr ho hd hl hc, by rw [ho, hd]; exact h.quiet, by rw [ho]; exact h.side,
    (hqueued _).trans h.state, (hqueued _).trans h.request, by unfold Transmitter.NamesIn; rw [ho]; exact h.names⟩

/-- An empty outbox fits every station that sends no snapshot and no request. -/
theorem Transmitter.Fits.of_empty (hl : t.Law) (ho : t.outbox = []) (hd : t.deferred = []) :
    t.Fits step false false slots :=
  ⟨hl, fun _ _ => ⟨ho, hd⟩, by simp [ho], by simp [Transmitter.queued, Transmitter.holds, ho, hd],
    by simp [Transmitter.queued, Transmitter.holds, ho, hd], by simp [Transmitter.NamesIn, ho]⟩

/-- No CLOSE entry stands where no ordered frame does. -/
theorem Transmitter.namesIn_of_side (hs : ∀ e ∈ t.outbox, e.body.kind.ordered = false) : t.NamesIn slots := by
  intro e he n hb
  have := hs e he
  rw [hb] at this; cases this

theorem Transmitter.NamesIn.mono {others : List EventRecord} (h : t.NamesIn slots)
    (hs : ∀ r ∈ slots, ∃ q ∈ others, q.number = r.number) : t.NamesIn others := by
  intro e he n hb
  obtain ⟨r, hr, rfl⟩ := h e he n hb
  exact hs r hr

/-- The open records change, and every number a CLOSE entry names stays. -/
theorem Transmitter.Fits.withSlots {others : List EventRecord} (h : t.Fits step serves asks slots)
    (hs : t.NamesIn others) : t.Fits step serves asks others :=
  ⟨h.law, h.quiet, h.side, h.state, h.request, hs⟩

/-- The open records change at a station that is not IN_STEP. -/
theorem Transmitter.Fits.withSlots_side (others : List EventRecord) (h : t.Fits step serves asks slots)
    (hi : step ≠ .inStep) : t.Fits step serves asks others :=
  h.withSlots (Transmitter.namesIn_of_side (h.side hi))

/-- The station comes into a state in which it transmits, with no ordered frame queued. -/
theorem Transmitter.Fits.withStep {next : StepState} (others : List EventRecord)
    (h : t.Fits step serves asks slots) (hs : ∀ e ∈ t.outbox, e.body.kind.ordered = false)
    (hn : next = .inStep ∨ next = .outOfStep) : t.Fits next serves asks others := by
  refine ⟨h.law, fun hi ho => ?_, fun _ => hs, h.state, h.request, Transmitter.namesIn_of_side hs⟩
  rcases hn with hn | hn
  · exact absurd hn hi
  · exact absurd hn ho

/-- An offer is neither an ordered frame nor a CLOSE. -/
theorem Body.offered_side {b : Body} (hk : b.kind = .state ∨ b.kind = .stateReq ∨ b.kind = .presence) :
    b.kind.ordered = false ∧ ∀ n, b ≠ .close n := by
  cases b <;> simp [Body.kind, Kind.ordered] at hk ⊢

/-- A withdrawal fits, with what it leaves of STATE and of STATE_REQ. -/
theorem Transmitter.Fits.withdraw {serves' asks' : Bool} (h : t.Fits step serves asks slots) {p : Body → Bool}
    (hp : t.Withdrawable p) (hs : (t.withdraw p).queued .state = serves')
    (hr : (t.withdraw p).queued .stateReq = asks') : (t.withdraw p).Fits step serves' asks' slots := by
  refine ⟨h.law.withdraw hp, fun hi ho => ?_, fun hi e he => ?_, hs, hr, fun e he n hb => ?_⟩
  · obtain ⟨houtbox, hdeferred⟩ := h.quiet hi ho
    refine ⟨(t.withdraw_empty p houtbox hdeferred).1, List.eq_nil_iff_forall_not_mem.mpr fun b hb => ?_⟩
    have := (Transmitter.withdraw_deferred_subset p t b hb).1
    rw [hdeferred] at this; cases this
  · rcases Transmitter.mem_withdraw he with ⟨x, hx, hbody, -⟩ | ⟨b, hb, rfl⟩
    · rw [← hbody]; exact h.side hi x hx
    · exact (Body.offered_side (h.law.deferred_kind b hb)).1
  · rcases Transmitter.mem_withdraw he with ⟨x, hx, hbody, -⟩ | ⟨c, hc, rfl⟩
    · exact h.names x hx n (hbody.trans hb)
    · exact absurd hb ((Body.offered_side (h.law.deferred_kind c hc)).2 n)

/-- The withdrawal of ordered frames leaves STATE and STATE_REQ. -/
theorem Transmitter.Fits.withdraw_ordered (h : t.Fits step serves asks slots) {p : Body → Bool}
    (hp : t.Withdrawable p) (ho : ∀ b, p b = true → b.kind.ordered = true) :
    (t.withdraw p).Fits step serves asks slots := by
  have hother : ∀ k : Kind, k.ordered = false → ∀ b : Body, b.isKind k = true → p b = false := by
    intro k hk b hb
    rw [Body.isKind, beq_iff_eq] at hb
    rw [← Bool.not_eq_true]
    intro hpb
    have := ho b hpb
    rw [hb, hk] at this; cases this
  exact h.withdraw hp ((t.withdraw_queued_other _ (hother .state rfl)).trans h.state)
    ((t.withdraw_queued_other _ (hother .stateReq rfl)).trans h.request)

theorem Body.isKind_other {b : Body} {j k : Kind} (hb : b.isKind j = true) (hjk : j ≠ k) :
    b.isKind k = false := by
  rw [Body.isKind, beq_iff_eq] at hb
  simpa [Body.isKind, hb] using hjk

theorem Transmitter.Fits.withdraw_state (h : t.Fits step serves asks slots) (hs : t.Still) :
    (t.withdraw (Body.isKind .state)).Fits step false asks slots :=
  h.withdraw (hs.withdrawable _) (hs.withdraw_queued_named _ fun _ hb => hb)
    ((t.withdraw_queued_other _ fun _ hb => Body.isKind_other hb (by decide)).trans h.request)

theorem Transmitter.Fits.withdraw_stateReq (h : t.Fits step serves asks slots) (hs : t.Still) :
    (t.withdraw (Body.isKind .stateReq)).Fits step serves false slots :=
  h.withdraw (hs.withdrawable _)
    ((t.withdraw_queued_other _ fun _ hb => Body.isKind_other hb (by decide)).trans h.state)
    (hs.withdraw_queued_named _ fun _ hb => hb)

/-- The withdrawal of everything empties the outbox while nothing is in transmission. -/
theorem Transmitter.Still.withdraw_all (hs : t.Still) :
    (t.withdraw (fun _ => true)).outbox = [] ∧ (t.withdraw (fun _ => true)).deferred = [] := by
  constructor
  · refine List.eq_nil_iff_forall_not_mem.mpr fun e he => ?_
    have := (hs.mem_withdraw _ he).2.1
    cases this
  · refine List.eq_nil_iff_forall_not_mem.mpr fun b hb => ?_
    have := (Transmitter.withdraw_deferred_subset _ t b hb).2
    cases this

/-- An offer at a station that transmits fits, its kind then standing. -/
theorem Transmitter.Fits.offer (h : t.Fits step serves asks slots) {b : Body}
    (hk : b.kind = .state ∨ b.kind = .stateReq ∨ b.kind = .presence)
    (hn : step = .inStep ∨ step = .outOfStep) :
    (t.offer b).Fits step (b.isKind .state || serves) (b.isKind .stateReq || asks) slots := by
  obtain ⟨hside, hclose⟩ := Body.offered_side hk
  refine ⟨h.law.offer hk, fun hi ho => ?_, fun hi e he => ?_, by rw [Transmitter.offer_queued, h.state],
    by rw [Transmitter.offer_queued, h.request], fun e he n hb => ?_⟩
  · rcases hn with hn | hn
    · exact absurd hn hi
    · exact absurd hn ho
  · rcases Transmitter.mem_offer he with rfl | he
    · exact hside
    · exact h.side hi e he
  · rcases Transmitter.mem_offer he with rfl | he
    · exact absurd hb (hclose n)
    · exact h.names e he n hb

theorem Transmitter.Fits.offer_state (h : t.Fits step serves asks slots) (c : Chunk)
    (hn : step = .inStep ∨ step = .outOfStep) : (t.offer (.state c)).Fits step true asks slots :=
  h.offer (b := .state c) (.inl rfl) hn

theorem Transmitter.Fits.offer_stateReq (h : t.Fits step serves asks slots) (fp : Half) (n : Byte)
    (hn : step = .inStep ∨ step = .outOfStep) : (t.offer (.stateReq fp n)).Fits step serves true slots :=
  h.offer (b := .stateReq fp n) (.inr (.inl rfl)) hn

theorem Transmitter.Fits.offer_presence (h : t.Fits step serves asks slots) (fp : Half)
    (hn : step = .inStep ∨ step = .outOfStep) : (t.offer (.presence fp)).Fits step serves asks slots :=
  h.offer (b := .presence fp) (.inr (.inr rfl)) hn

/-- The Close Scheduler fits at an IN_STEP station, for records that are open (R32). -/
theorem Transmitter.Fits.scheduleCloses (h : t.Fits .inStep serves asks slots) (now : Tick) :
    (Transmitter.scheduleCloses now slots t).Fits .inStep serves asks slots := by
  refine ⟨h.law.scheduleCloses now slots, fun hi => absurd rfl hi, fun hi => absurd rfl hi,
    (Transmitter.scheduleCloses_queued _ (by decide) _ _ _).trans h.state,
    (Transmitter.scheduleCloses_queued _ (by decide) _ _ _).trans h.request, fun e he n hb => ?_⟩
  rcases mem_scheduleCloses_names he with he | ⟨r, hr, -, rfl⟩
  · exact h.names e he n hb
  · cases hb; exact ⟨r, hr, rfl⟩

/-- A CLAIM, CLEAR or EPOCH admitted at an IN_STEP station fits. -/
theorem Transmitter.Fits.admitEntry (h : t.Fits .inStep serves asks slots) {b : Body}
    (hk : b.kind = .claim ∨ b.kind = .clear ∨ b.kind = .epoch) (hp : Places b t.outbox) :
    (t.admitEntry b).Fits .inStep serves asks slots := by
  have hother : ∀ k, k = .state ∨ k = .stateReq ∨ k = .presence → b.isKind k = false := by
    rintro k (rfl | rfl | rfl) <;> rcases hk with hk | hk | hk <;> simp [Body.isKind, hk]
  have hqueued : ∀ k, k = .state ∨ k = .stateReq ∨ k = .presence →
      (t.admitEntry b).queued k = t.queued k := fun k hko => by
    simp [Transmitter.queued, Transmitter.holds, Transmitter.admitEntry, any_insertEntry, Entry.fresh,
      hother k hko]
  have hdeferred : t.deferred.any (Body.isKind b.kind) = false := by
    refine List.any_eq_false.mpr fun c hc hsame => ?_
    rw [Body.isKind, beq_iff_eq] at hsame
    have := hother c.kind (h.law.deferred_kind c hc)
    simp [Body.isKind, hsame] at this
  refine ⟨h.law.admitEntry hp hdeferred fun hg => ?_, fun hi => absurd rfl hi, fun hi => absurd rfl hi,
    (hqueued _ (.inl rfl)).trans h.state, (hqueued _ (.inr (.inl rfl))).trans h.request, fun e he n hb => ?_⟩
  · by_contra hd
    have := h.law.full hd
    have := hp.general hg
    omega
  · rcases (mem_insertEntry _ _ _).mp he with rfl | he
    · simp only [Entry.fresh] at hb
      subst hb
      simp [Body.kind] at hk
    · exact h.names e he n hb

/-! ### The entry in transmission -/

/-- The entry `e` is the one in transmission. -/
structure Transmitter.Sends (e : Entry) (t : Transmitter) : Prop where
  online : t.onLine.isSome = true
  mem : e ∈ t.outbox
  sending : e.sending = true

theorem Transmitter.sends_of_sendingEntry {e : Entry} (ho : t.onLine.isSome = true)
    (h : t.sendingEntry = some e) : t.Sends e :=
  ⟨ho, List.mem_of_find?_eq_some h, List.find?_some h⟩

/-- The waiting entries are those of the outbox but the one in transmission. -/
theorem Transmitter.Sends.waiting_iff {e : Entry} (hs : t.Sends e) (hl : t.Law) (x : Entry) :
    x ∈ t.waiting ↔ x ∈ t.outbox ∧ x ≠ e := by
  rw [Transmitter.mem_waiting]
  refine and_congr_right fun hx => ⟨?_, fun hne => ?_⟩
  · rintro hstill rfl
    rw [hs.sending] at hstill; cases hstill
  · rw [← Bool.not_eq_true]
    exact fun hxs => hne (sending_unique t e x hl hs.online hs.mem hs.sending hx hxs)

theorem Transmitter.dropSending_eq (t : Transmitter) :
    t.dropSending = Transmitter.admitDeferred { t with outbox := t.waiting, onLine := none } := rfl

/-- After the entry in transmission has left, every kind that stands once stands as before but its own. -/
theorem Transmitter.Sends.dropSending_queued {e : Entry} (hs : t.Sends e) (hl : t.Law) (k : Kind)
    (hc : k ≠ .claim) (hd : k ≠ .close) :
    t.dropSending.queued k = (t.queued k && !e.body.isKind k) := by
  rw [Transmitter.dropSending_eq, Transmitter.admitDeferred_queued]
  by_cases hk : e.body.isKind k = true
  · have hone := hl.loose.entries.single k hc hd
    have hadmitted : t.waiting.any (fun x => x.body.isKind k) = false :=
      List.any_eq_false.mpr fun x hx hxk => by
        obtain ⟨hmem, hne⟩ := (hs.waiting_iff hl x).mp hx
        exact hne (eq_of_filter_length_le_one hone hmem hs.mem hxk hk)
    have hdeferred : t.deferred.any (Body.isKind k) = false :=
      List.any_eq_false.mpr fun b hb hbk => by
        rw [Body.isKind, beq_iff_eq] at hbk
        have hfree := List.any_eq_false.mp (hl.loose.offers.kinds b hb).2 e hs.mem
        rw [hbk] at hfree; exact hfree hk
    simp [Transmitter.queued, Transmitter.holds, hadmitted, hdeferred, hk]
  · have hadmitted : t.waiting.any (fun x => x.body.isKind k) = t.outbox.any (fun x => x.body.isKind k) := by
      rw [Bool.eq_iff_iff, List.any_eq_true, List.any_eq_true]
      constructor
      · rintro ⟨x, hx, hxk⟩
        exact ⟨x, ((hs.waiting_iff hl x).mp hx).1, hxk⟩
      · rintro ⟨x, hx, hxk⟩
        exact ⟨x, (hs.waiting_iff hl x).mpr ⟨hx, fun he => hk (he ▸ hxk)⟩, hxk⟩
    simp [Transmitter.queued, Transmitter.holds, hadmitted, hk]

/-- What stands after the entry in transmission has left. -/
theorem Transmitter.mem_dropSending {e : Entry} (h : e ∈ t.dropSending.outbox) :
    e ∈ t.waiting ∨ ∃ b ∈ t.deferred, e = Entry.fresh b := Transmitter.mem_admitDeferred h

/-- The entry in transmission leaves, by completion or discard. -/
theorem Transmitter.Fits.dropSending {e : Entry} (h : t.Fits step serves asks slots) (hs : t.Sends e) :
    t.dropSending.Fits step (serves && !e.body.isKind .state) (asks && !e.body.isKind .stateReq) slots := by
  refine ⟨h.law.dropSending, fun hi ho => ?_, fun hi x hx => ?_, ?_, ?_, fun x hx n hb => ?_⟩
  · have := hs.mem
    rw [(h.quiet hi ho).1] at this; cases this
  · rcases Transmitter.mem_dropSending hx with hx | ⟨b, hb, rfl⟩
    · exact h.side hi x ((Transmitter.mem_waiting x t).mp hx).1
    · exact (Body.offered_side (h.law.deferred_kind b hb)).1
  · rw [hs.dropSending_queued h.law _ (by decide) (by decide), h.state]
  · rw [hs.dropSending_queued h.law _ (by decide) (by decide), h.request]
  · rcases Transmitter.mem_dropSending hx with hx | ⟨b, hc, rfl⟩
    · exact h.names x ((Transmitter.mem_waiting x t).mp hx).1 n hb
    · exact absurd hb ((Body.offered_side (h.law.deferred_kind b hc)).2 n)

/-- The entries after an attempt that ended: those that were there, their bodies unchanged. -/
theorem Transmitter.mem_returnSending {f : Entry → Entry} (hf : ∀ e, (f e).body = e.body) {e : Entry}
    (h : e ∈ (t.returnSending f).outbox) :
    (∃ x ∈ t.outbox, x.body = e.body) ∨ ∃ b ∈ t.deferred, e = Entry.fresh b := by
  rcases Transmitter.mem_admitDeferred h with h | ⟨b, hb, rfl⟩
  · obtain ⟨x, hx, rfl⟩ := List.mem_map.mp h
    refine .inl ⟨x, (List.mem_filter.mp hx).1, ?_⟩
    split <;> simp [hf]
  · exact .inr ⟨b, hb, rfl⟩

/-- The end of an attempt takes no entry but a CLAIM with its mark. -/
theorem Transmitter.Law.returnSending_queued (hl : t.Law) {f : Entry → Entry} (hf : ∀ e, (f e).body = e.body)
    (k : Kind) (hk : k ≠ .claim) : (t.returnSending f).queued k = t.queued k := by
  rw [Transmitter.returnSending, Transmitter.admitDeferred_queued]
  simp only [Transmitter.queued, Transmitter.holds]
  congr 1
  rw [Bool.eq_iff_iff, List.any_eq_true, List.any_eq_true]
  have hbody : ∀ e : Entry, (if e.sending then { f e with sending := false } else e).body = e.body :=
    fun e => by split <;> simp [hf]
  constructor
  · rintro ⟨e, he, hek⟩
    obtain ⟨x, hx, rfl⟩ := List.mem_map.mp he
    exact ⟨x, (List.mem_filter.mp hx).1, by rwa [hbody] at hek⟩
  · rintro ⟨e, he, hek⟩
    have hunmarked : e.mark = false := by
      rw [← Bool.not_eq_true]
      intro hm
      have hclaim := ((hl.loose.entries.carried e he).2 hm).2
      rw [Body.isKind, beq_iff_eq] at hek
      exact hk (hek.symm.trans hclaim)
    refine ⟨_, List.mem_map.mpr ⟨e, List.mem_filter.mpr ⟨he, by simp [hunmarked]⟩, rfl⟩, ?_⟩
    rwa [hbody]

/-- The attempt in transmission ends without completing and without a discard. -/
theorem Transmitter.Fits.returnSending (h : t.Fits step serves asks slots) {f : Entry → Entry}
    (hb : ∀ e, (f e).body = e.body) (hm : ∀ e, (f e).mark = e.mark)
    (ha : ∀ e ∈ t.outbox, e.sending = true → (f e).attempts < Config.maxAttempts)
    (hn : step = .inStep ∨ step = .outOfStep) : (t.returnSending f).Fits step serves asks slots := by
  refine ⟨h.law.returnSending hb hm ha, fun hi ho => ?_, fun hi x hx => ?_,
    (h.law.returnSending_queued hb _ (by decide)).trans h.state,
    (h.law.returnSending_queued hb _ (by decide)).trans h.request, fun x hx n hc => ?_⟩
  · rcases hn with hn | hn
    · exact absurd hn hi
    · exact absurd hn ho
  · rcases Transmitter.mem_returnSending hb hx with ⟨y, hy, hbody⟩ | ⟨b, hbm, rfl⟩
    · rw [← hbody]; exact h.side hi y hy
    · exact (Body.offered_side (h.law.deferred_kind b hbm)).1
  · rcases Transmitter.mem_returnSending hb hx with ⟨y, hy, hbody⟩ | ⟨b, hbm, rfl⟩
    · exact h.names y hy n (hbody.trans hc)
    · exact absurd hc ((Body.offered_side (h.law.deferred_kind b hbm)).2 n)

end Fits

end Sys2Proof.Machine

/-! The law of the outbox through the operations of the station (O5). -/

namespace Sys2Proof.Machine

/-! ### Operations that the law does not see -/

/-- Nothing changes of what the law of the outbox speaks of. -/
structure State.OutboxKept (s t : State) : Prop where
  outbox : t.tx.outbox = s.tx.outbox
  deferred : t.tx.deferred = s.tx.deferred
  onLine : t.tx.onLine.isSome = s.tx.onLine.isSome
  discards : t.tx.discards = s.tx.discards
  stepState : t.stepState = s.stepState
  serves : t.responder.phase.isSending = s.responder.phase.isSending
  asks : t.requester.phase.unsent = s.requester.phase.unsent
  slots : t.table.slots = s.table.slots

theorem State.OutboxKept.outboxLaw {s t : State} (h : s.OutboxKept t) (hs : s.OutboxLaw) : t.OutboxLaw := by
  rw [State.outboxLaw_iff] at *
  rw [h.stepState, h.serves, h.asks, h.slots]
  exact hs.congr h.outbox h.deferred h.onLine (by rw [h.discards]; exact hs.law.loose.discards)

/-- An empty outbox is lawful at a station that sends no snapshot and no request. -/
theorem State.outboxLaw_of_empty {s : State} (hl : s.tx.Law) (ho : s.tx.outbox = []) (hd : s.tx.deferred = [])
    (hs : s.responder.phase.isSending = false) (hr : s.requester.phase.unsent = false) : s.OutboxLaw := by
  rw [State.outboxLaw_iff, hs, hr]
  exact Transmitter.Fits.of_empty hl ho hd

/-- The Transmitter fits a station that does not transmit by being empty. -/
theorem State.OutboxLaw.empty {s : State} (h : s.OutboxLaw) (hi : s.stepState ≠ .inStep)
    (ho : s.stepState ≠ .outOfStep) : s.tx.outbox = [] ∧ s.tx.deferred = [] :=
  ((State.outboxLaw_iff s).mp h).quiet hi ho

/-- The contexts of a station fit its step state: a resync runs only OUT_OF_STEP, and the responder works only
IN_STEP (R106, R125). -/
structure State.ContextsFit (s : State) : Prop where
  requester : s.requester.phase ≠ .none → s.stepState = .outOfStep
  responder : s.stepState ≠ .inStep → s.responder.phase = .idle

theorem State.PhaseLaw.contextsFit {s : State} (h : s.PhaseLaw) : s.ContextsFit := by
  obtain ⟨-, -, -, -, hphase, -, -, -, -, hresponder, -⟩ := h
  exact ⟨hphase.mp, fun hi => by rw [hresponder hi]; rfl⟩

/-! ### Withdrawals, closes and dues -/

/-- The withdrawal of ordered frames keeps the law. -/
theorem State.withdraw_ordered_outboxLaw {s : State} {p : Body → Bool} (hs : s.OutboxLaw)
    (hp : s.tx.Withdrawable p) (ho : ∀ b, p b = true → b.kind.ordered = true) : (s.withdraw p).OutboxLaw := by
  rw [State.outboxLaw_iff] at *
  exact hs.withdraw_ordered hp ho

/-- A CLAIM may be withdrawn at any time: one in transmission takes the mark (R72, R83). -/
theorem State.withdraw_claims_outboxLaw {s : State} {p : Body → Bool} (hs : s.OutboxLaw)
    (hp : ∀ b, p b = true → b.kind = .claim) : (s.withdraw p).OutboxLaw :=
  State.withdraw_ordered_outboxLaw hs (fun _ _ _ h => hp _ h) fun b hb => by rw [hp b hb]; rfl

theorem State.scheduleCloses_outboxLaw {s : State} (hs : s.OutboxLaw) : s.scheduleCloses.OutboxLaw := by
  by_cases hi : s.stepState = .inStep
  · rw [State.outboxLaw_iff] at *
    rw [hi] at hs
    have hfits := hs.scheduleCloses s.tick
    simpa [State.scheduleCloses, hi] using hfits
  · have hsame : s.scheduleCloses = s := by simp [State.scheduleCloses, hi]
    rwa [hsame]

theorem State.computeDues_outboxLaw {s : State} (hs : s.OutboxLaw) : s.computeDues.OutboxLaw := by
  refine State.scheduleCloses_outboxLaw ?_
  rw [State.outboxLaw_iff] at *
  exact hs.withSlots (hs.names.mono fun r hr => ⟨_, List.mem_map_of_mem hr, rfl⟩)

/-! ### Ordered frames -/

/-- A claim takes no record out of the open slots. -/
theorem Table.claim_slots_numbers (a : Addr) (stamp : Tick) (due : Option Tick) (t : Table) (w : Nat)
    (epoch : Byte) : ∀ r ∈ t.slots,
      ∃ q ∈ (t.claim a stamp due (t.claimEffect w a stamp epoch)).slots, q.number = r.number := by
  intro r hr
  unfold Table.claimEffect
  split
  next => exact ⟨r, hr, rfl⟩
  next =>
  split
  next slots hslots =>
    have hnumbers : slots.map EventRecord.number = t.slots.map EventRecord.number :=
      map_updateFirst EventRecord.number (fun x => by unfold EventRecord.join; split <;> rfl) hslots
    have hmem : r.number ∈ slots.map EventRecord.number := by rw [hnumbers]; exact List.mem_map_of_mem hr
    exact List.mem_map.mp hmem
  next =>
  split
  next => exact ⟨r, hr, rfl⟩
  next =>
  split
  next => exact ⟨r, by simp [Table.claim, hr], rfl⟩
  next => exact ⟨r, hr, rfl⟩

theorem State.applyClaim_outboxLaw {s : State} (a : Addr) (stamp : Tick) (epoch : Byte) (hs : s.OutboxLaw) :
    (s.applyClaim a stamp epoch).OutboxLaw := by
  have hclaimed : ∀ table : Table, table = s.table.claim a stamp (s.openingDue a stamp)
      (s.table.claimEffect s.params.w.toNat a stamp epoch) →
        State.OutboxLaw { s with table := table } := by
    rintro table rfl
    rw [State.outboxLaw_iff] at *
    exact hs.withSlots (hs.names.mono (Table.claim_slots_numbers _ _ _ _ _ _))
  unfold State.applyClaim
  dsimp only
  split
  · exact State.scheduleCloses_outboxLaw (hclaimed _ rfl)
  · exact hclaimed _ rfl

theorem takeFirst_holds {α : Type} {p : α → Bool} {l rest : List α} {r : α}
    (h : takeFirst p l = some (r, rest)) : p r = true := by
  induction l generalizing rest with
  | nil => simp [takeFirst] at h
  | cons y ys ih =>
    unfold takeFirst at h
    split at h
    next hy => cases h; exact hy
    next =>
      obtain ⟨⟨z, zs⟩, hz, he⟩ := Option.map_eq_some_iff.mp h
      cases he
      exact ih hz

/-- A CLOSE takes no record out of the open slots but one of its number. -/
theorem Table.closed_slots_numbers (q : Nat) (a : Addr) (n : Half) (note : EventRecord → OrderNote) (t : Table) :
    ∀ r ∈ t.slots, r.number ≠ n → r ∈ (t.closed q a n note).slots := by
  intro r hr hn
  unfold Table.closed
  split
  next => exact hr
  next x rest htake =>
    rcases List.mem_cons.mp ((perm_of_takeFirst htake).mem_iff.mp hr) with rfl | hr
    · exact absurd (by simpa using takeFirst_holds htake) hn
    · exact hr

/-- A CLOSE withdraws the CLOSE entries of its number, whatever it finds, and moves no context. -/
theorem State.applyClose_fields (a : Addr) (n : Half) (s : State) :
    (s.applyClose a n).tx = s.tx.withdraw (· == .close n) ∧ (s.applyClose a n).stepState = s.stepState
      ∧ (s.applyClose a n).responder = s.responder ∧ (s.applyClose a n).requester = s.requester := by
  refine ⟨?_, by simp, by simp, by simp⟩
  unfold State.applyClose
  dsimp only
  (repeat' split) <;> simp

theorem State.applyClose_outboxLaw {s : State} (a : Addr) (n : Half) (hs : s.OutboxLaw) (hst : s.tx.Still) :
    (s.applyClose a n).OutboxLaw := by
  obtain ⟨htx, hstep, hresponder, hrequester⟩ := s.applyClose_fields a n
  rw [State.outboxLaw_iff] at *
  rw [htx, hstep, hresponder, hrequester, State.applyClose_table]
  refine (hs.withdraw_ordered (hst.withdrawable _) fun b hb => ?_).withSlots fun e he m hm => ?_
  · rw [beq_iff_eq.mp hb]; rfl
  · have hkept := (hs.withdraw_ordered (hst.withdrawable (· == .close n)) fun b hb => by
      rw [beq_iff_eq.mp hb]; rfl).names e he m hm
    obtain ⟨r, hr, rfl⟩ := hkept
    refine ⟨r, Table.closed_slots_numbers _ _ _ _ _ r hr fun hnumber => ?_, rfl⟩
    have hother := (hst.mem_withdraw _ he).2.1
    rw [hm, hnumber] at hother
    simp at hother

/-- An EPOCH withdraws the CLOSE entries where it is applied; elsewhere none stands (R46, R55). -/
theorem State.applyEpoch_outboxLaw {s : State} (a : Addr) (hs : s.OutboxLaw) (hst : s.tx.Still) :
    (s.applyEpoch a).OutboxLaw := by
  unfold State.applyEpoch
  dsimp only
  rw [State.outboxLaw_iff] at hs
  split
  next =>
    rw [State.outboxLaw_iff]
    refine (hs.withdraw_ordered (hst.withdrawable (Body.isKind .close)) fun b hb => ?_).withSlots
      fun e he n hn => ?_
    · rw [Body.isKind, beq_iff_eq] at hb; rw [hb]; rfl
    · have hnot := (hst.mem_withdraw _ he).2.1
      rw [hn] at hnot; cases hnot
  next hnot =>
    rw [State.outboxLaw_iff]
    refine hs.withSlots_side _ fun hi => hnot ?_
    simp [State.applies, hi]

/-- An applied CLAIM, CLOSE or EPOCH keeps the law while nothing is in transmission. -/
theorem State.applyFrame_outboxLaw {s : State} (a : Addr) (body : Sequenced) (hs : s.OutboxLaw)
    (hst : s.tx.Still) : (s.applyFrame a body).OutboxLaw := by
  have hcounted : ∀ bytes, State.OutboxLaw { s.rise .framesApplied 1 with table := s.table.advance bytes } :=
    fun bytes => State.OutboxKept.outboxLaw (by constructor <;> simp [Table.advance]) hs
  cases body with
  | claim stamp epoch => exact State.applyClaim_outboxLaw _ _ _ (hcounted _)
  | close n => exact State.applyClose_outboxLaw _ _ (hcounted _) hst
  | epoch => exact State.applyEpoch_outboxLaw _ (hcounted _) hst

theorem State.OutboxLaw.still {s : State} (h : s.OutboxLaw) (ho : s.tx.onLine = none) : s.tx.Still :=
  h.1.still ho

theorem State.applyHeld_outboxLaw {s : State} (fs : List Held) (hs : s.OutboxLaw) (ho : s.tx.onLine = none) :
    (s.applyHeld fs).OutboxLaw := by
  induction fs generalizing s with
  | nil => exact hs
  | cons f fs ih => exact ih (State.applyFrame_outboxLaw _ _ hs (hs.still ho)) (by simpa using ho)

/-- A CLEAR withdraws the CLOSE entries and abandons the responder (R40, R131). -/
theorem State.applyClear_tx (s : State) : s.applyClear.tx
    = (s.tx.withdraw (Body.isKind .close)).withdraw (Body.isKind .state) := by
  simp [State.applyClear, State.abandonResponder, State.flushOrders, State.withdraw]

theorem State.applyClear_responder (s : State) : s.applyClear.responder = Responder.idle := by
  simp [State.applyClear, State.abandonResponder, State.withdraw]

theorem State.applyClear_outboxLaw {s : State} (hs : s.OutboxLaw) (hst : s.tx.Still) :
    s.applyClear.OutboxLaw := by
  rw [State.outboxLaw_iff] at *
  rw [State.applyClear_tx, State.applyClear_responder, State.applyClear_table]
  have hcloses := hs.withdraw_ordered (hst.withdrawable (Body.isKind .close)) fun b hb => by
    rw [Body.isKind, beq_iff_eq] at hb; rw [hb]; rfl
  have hfits := (hcloses.withdraw_state (hst.withdraw _)).withSlots (others := (s.table.cleared s.fingerprint).slots)
    fun e he n hn => by
      have hnot := (hst.mem_withdraw_withdraw _ _ he).2.1
      rw [hn] at hnot; cases hnot
  simpa [Responder.idle, ResponderPhase.isSending] using hfits

theorem State.epochArrival_outboxLaw {s : State} (hs : s.OutboxLaw) : s.epochArrival.OutboxLaw := by
  unfold State.epochArrival
  split
  · refine State.withdraw_claims_outboxLaw (State.OutboxKept.outboxLaw (by constructor <;> simp) hs) ?_
    intro b hb
    simpa [Body.isKind] using hb
  · exact hs

/-! ### Requests, failures and entries into step -/

/-- A STATE_REQ offered at a station that transmits, its request waiting to be sent. -/
theorem State.offerRequest_outboxLaw {s : State} {asks : Bool}
    (hs : s.tx.Fits s.stepState s.responder.phase.isSending asks s.table.slots)
    (hr : s.requester.phase = .requesting none) (ht : s.stepState = .inStep ∨ s.stepState = .outOfStep) :
    s.offerRequest.OutboxLaw := by
  rw [State.outboxLaw_iff]
  have hfits := hs.offer_stateReq s.fingerprint s.requester.attempt ht
  simpa [State.offerRequest, State.requestBody, hr, RequesterPhase.unsent] using hfits

theorem State.nextAttempt_outboxLaw {s : State} (hs : s.OutboxLaw) (ht : s.stepState = .outOfStep) :
    s.nextAttempt.OutboxLaw := by
  rw [State.outboxLaw_iff] at hs
  exact State.offerRequest_outboxLaw (s := { s with requester := _ }) hs rfl (.inr ht)

/-- Self-assert of a station OUT_OF_STEP with no request waiting to be sent (R124). -/
theorem State.selfAssert_outboxLaw {s : State}
    (hs : s.tx.Fits .outOfStep s.responder.phase.isSending false s.table.slots) : s.selfAssert.OutboxLaw := by
  refine State.computeDues_outboxLaw ?_
  rw [State.outboxLaw_iff]
  exact hs.withStep _ (hs.side (by decide)) (.inl rfl)

/-- A failure of an attempt whose request has been sent keeps the law (R122 to R124). -/
theorem State.fail_outboxLaw {s : State} (k : FailKind) (hs : s.OutboxLaw) (ht : s.stepState = .outOfStep)
    (hr : s.requester.phase ≠ .requesting none) : (s.fail k).OutboxLaw := by
  have hasked := RequesterPhase.unsent_eq_false hr
  rw [State.outboxLaw_iff, hasked, ht] at hs
  unfold State.fail
  dsimp only
  split
  · exact State.offerRequest_outboxLaw (asks := false) (by simpa [ht] using hs) rfl (.inr ht)
  · split
    · exact State.selfAssert_outboxLaw hs
    · rw [State.outboxLaw_iff]
      simpa [ht, RequesterPhase.unsent] using hs

theorem Requester.collecting_sent {r : Requester} (h : r.collecting = true) : r.phase ≠ .requesting none := by
  intro hp
  simp [Requester.collecting, hp] at h

theorem State.holdFrame_outboxLaw {s : State} (a : Addr) (body : Sequenced) (n : Half) (hs : s.OutboxLaw)
    (ht : s.stepState = .outOfStep) : (s.holdFrame a body n).OutboxLaw := by
  unfold State.holdFrame
  split
  next hc =>
    split
    · exact State.OutboxKept.outboxLaw (by constructor <;> rfl) hs
    · exact State.fail_outboxLaw _ hs ht (Requester.collecting_sent hc)
  next => exact hs

theorem State.enterOutOfStep_stepState (s : State) : s.enterOutOfStep.stepState = .outOfStep := by
  obtain ⟨-, -, -, -, -, hout, -⟩ := s.enterOutOfStep_facts
  exact hout

/-- The entry into OUT_OF_STEP: no ordered frame and no STATE stays, and the STATE_REQ stands (R93, R94). -/
theorem State.enterOutOfStep_outboxLaw {s : State} (hs : s.OutboxLaw) (hst : s.tx.Still) :
    s.enterOutOfStep.OutboxLaw := by
  rw [State.outboxLaw_iff] at *
  obtain ⟨hrequester, hresponder, -⟩ := s.enterOutOfStep_contexts
  have hwithdrawn := (hs.withdraw_ordered (hst.withdrawable (fun b => b.kind.ordered))
    fun _ hb => hb).withdraw_state (hst.withdraw _)
  have hside : ∀ e ∈ ((s.tx.withdraw (fun b => b.kind.ordered)).withdraw (Body.isKind .state)).outbox,
      e.body.kind.ordered = false := fun e he => (hst.mem_withdraw_withdraw _ _ he).2.1
  rw [State.enterOutOfStep_tx, s.enterOutOfStep_stepState, hrequester, hresponder]
  exact (hwithdrawn.withStep _ hside (.inr rfl)).offer_stateReq _ _ (.inr rfl)

theorem State.leaveStep_outboxLaw {s : State} (hs : s.OutboxLaw) (hst : s.tx.Still) : s.leaveStep.OutboxLaw :=
  State.enterOutOfStep_outboxLaw (State.OutboxKept.outboxLaw (by constructor <;> simp) hs) hst

theorem State.join_outboxLaw {s : State} (hs : s.OutboxLaw) (hst : s.tx.Still) : s.join.OutboxLaw :=
  State.enterOutOfStep_outboxLaw (State.OutboxKept.outboxLaw (by constructor <;> rfl) hs) hst

/-- The entry into MUTE empties the outbox (R60). -/
theorem State.enterMute_outboxLaw {s : State} (ho : s.tx.onLine = none) (hst : s.tx.Still) :
    s.enterMute.OutboxLaw := by
  obtain ⟨houtbox, hdeferred⟩ := hst.withdraw_all
  refine State.outboxLaw_of_empty (Transmitter.Law.of_empty houtbox hdeferred ?_ ?_) houtbox hdeferred rfl rfl
  · exact (s.tx.withdraw_frame (fun _ => true)).1.trans ho
  · simp [State.enterMute, Config.maxDiscards]

/-- A CLEAR at an OUT_OF_STEP station (R41). -/
theorem State.clearOutOfStep_outboxLaw {s : State} (tick : Tick) (epoch : Byte) (hs : s.OutboxLaw)
    (hst : s.tx.Still) (ht : s.stepState = .outOfStep) : (s.clearOutOfStep tick epoch).OutboxLaw := by
  have habandoned : State.OutboxLaw ({ s with requester := Requester.idle }.withdraw (Body.isKind .stateReq)) := by
    rw [State.outboxLaw_iff] at *
    exact hs.withdraw_stateReq hst
  have hcleared := State.applyClear_outboxLaw habandoned (hst.withdraw _)
  refine State.computeDues_outboxLaw ?_
  have hstep : (State.applyClear ({ s with requester := Requester.idle }.withdraw
      (Body.isKind .stateReq))).stepState = .outOfStep := by simpa using ht
  rw [State.outboxLaw_iff, hstep] at hcleared
  rw [State.outboxLaw_iff]
  simpa using hcleared.withStep _ (hcleared.side (by decide)) (.inl rfl)

/-- The entry into CONFLICT empties the outbox (R132). -/
theorem State.enterConflict_outboxLaw {s : State} (hs : s.OutboxLaw) (hst : s.tx.Still)
    (hr : s.responder.phase.isSending = false) : s.enterConflict.OutboxLaw := by
  have hempty := hst.withdraw_all
  exact State.outboxLaw_of_empty (hs.1.withdraw (hst.withdrawable _)) hempty.1 hempty.2 hr rfl

/-- The station founds: its outbox was empty, and an EPOCH is queued (R143). -/
theorem State.found_outboxLaw {s : State} (hs : s.OutboxLaw) (hc : s.ContextsFit)
    (hl : s.stepState = .listening) : s.found.OutboxLaw := by
  obtain ⟨houtbox, hdeferred⟩ := hs.empty (by simp [hl]) (by simp [hl])
  have hidle : s.responder.phase = .idle := hc.responder (by simp [hl])
  have hnone : s.requester.phase = .none := by
    by_contra hne
    have := hc.requester hne
    rw [hl] at this; cases this
  have hdues : State.OutboxLaw (State.computeDues
      { s with
        stepState := .inStep, listeningEnd := none, lastSent := s.tick,
        table := Table.founding s.fingerprint }) :=
    State.computeDues_outboxLaw
      (State.outboxLaw_of_empty hs.1 houtbox hdeferred (by rw [hidle]; rfl) (by rw [hnone]; rfl))
  unfold State.found
  dsimp only
  split
  next => exact hdues
  next hnot =>
    rw [State.outboxLaw_iff] at *
    refine Transmitter.Fits.admitEntry hdues (.inr (.inr rfl))
      ⟨by simp [Body.kind, Kind.general], fun _ _ => ?_, by simp⟩
    simpa [Transmitter.holds, Body.kind] using hnot

end Sys2Proof.Machine

/-! The law of the outbox through an install, the responder and the acceptances (O5). -/

namespace Sys2Proof.Machine

/-! ### The install (R114 to R121) -/

theorem State.takeHeader_outboxLaw {s : State} (a : Addr) (total : Nat) (h : SnapHeader) (tick : Tick)
    (hs : s.OutboxLaw) (hr : s.requester.phase ≠ .requesting none) : (s.takeHeader a total h tick).OutboxLaw := by
  have hasked := RequesterPhase.unsent_eq_false hr
  refine State.OutboxKept.outboxLaw ?_ hs
  constructor <;> simp [State.takeHeader, hasked]

theorem State.install_outboxLaw {s : State} (h : SnapHeader) (records : List EventRecord) (hs : s.OutboxLaw)
    (ho : s.tx.onLine = none) (ht : s.stepState = .outOfStep) (hr : s.requester.phase ≠ .requesting none) :
    (s.install h records).OutboxLaw := by
  have hasked := RequesterPhase.unsent_eq_false hr
  unfold State.install
  split
  next => exact State.fail_outboxLaw _ hs ht hr
  next marked _ =>
    have hreplaced : State.OutboxLaw { s with table := installedTable h records } := by
      rw [State.outboxLaw_iff] at *
      exact hs.withSlots_side _ (by simp [ht])
    have happlied := State.applyHeld_outboxLaw marked hreplaced ho
    refine State.computeDues_outboxLaw ?_
    rw [State.outboxLaw_iff] at *
    have hstep : (State.applyHeld marked { s with table := installedTable h records }).stepState = .outOfStep := by
      simpa using ht
    have hphase : (State.applyHeld marked { s with table := installedTable h records }).requester.phase.unsent
        = false := by simpa using hasked
    rw [hstep, hphase] at happlied
    exact happlied.withStep _ (happlied.side (by decide)) (.inl rfl)

/-- A header in REQUESTING with the request sent (R113, R114). -/
theorem State.examineHeader_outboxLaw {s : State} (a : Addr) (n : Nat) (b : StateBody) (hs : s.OutboxLaw)
    (ho : s.tx.onLine = none) (ht : s.stepState = .outOfStep) (hr : s.requester.phase ≠ .requesting none)
    (hi : s.responder.phase = .idle) : (s.examineHeader a n b).OutboxLaw := by
  unfold State.examineHeader
  split
  next => exact State.enterConflict_outboxLaw hs (hs.still ho) (by rw [hi]; rfl)
  next =>
  split
  next => exact State.fail_outboxLaw _ hs ht hr
  next h tick _ =>
  split
  next =>
    have htaken := State.takeHeader_outboxLaw a b.total.toNat h tick hs hr
    dsimp only
    split
    · exact State.install_outboxLaw h [] htaken (by simpa using ho) (by simpa using ht)
        (by simp [State.takeHeader])
    · exact htaken
  next => exact State.fail_outboxLaw _ hs ht hr

/-- A chunk in RECEIVING (R116, R117). -/
theorem State.takeChunk_outboxLaw {s : State} (c : Receiving) (n : Nat) (b : StateBody) (hs : s.OutboxLaw)
    (ho : s.tx.onLine = none) (ht : s.stepState = .outOfStep) (hr : s.requester.phase = .receiving c) :
    (s.takeChunk c n b).OutboxLaw := by
  have hsent : s.requester.phase ≠ .requesting none := by simp [hr]
  have hfail := State.fail_outboxLaw .badChunk hs ht hsent
  unfold State.takeChunk
  split
  next => exact hfail
  next =>
  split
  next => exact hfail
  next =>
  split
  next => exact hfail
  next =>
  split
  next => exact hfail
  next =>
    dsimp only
    split
    · exact State.install_outboxLaw _ _ hs ho ht hsent
    · exact State.OutboxKept.outboxLaw (by constructor <;> simp [hr]) hs

theorem State.requesterState_outboxLaw {s : State} (a : Addr) (n : Nat) (b : StateBody) (hs : s.OutboxLaw)
    (ho : s.tx.onLine = none) (ht : s.stepState = .outOfStep) (hc : s.ContextsFit) :
    (s.requesterState a n b).OutboxLaw := by
  unfold State.requesterState
  split
  next => exact hs
  next =>
  split
  next d hp =>
    split
    · exact State.examineHeader_outboxLaw a n b hs ho ht (by simp [hp]) (hc.responder (by simp [ht]))
    · exact hs
  next c hp =>
    split
    · exact State.takeChunk_outboxLaw c n b hs ho ht hp
    · exact hs
  next => exact hs

/-! ### The responder (R126 to R130) -/

/-- The service has ended, and no STATE stands. -/
theorem State.takeLatch_outboxLaw {s : State}
    (hs : s.tx.Fits s.stepState false s.requester.phase.unsent s.table.slots) : s.takeLatch.OutboxLaw := by
  rw [State.outboxLaw_iff]
  unfold State.takeLatch
  split <;> exact hs

theorem State.requestHeard_outboxLaw {s : State} (a : Addr) (hs : s.OutboxLaw) : (s.requestHeard a).OutboxLaw := by
  refine State.OutboxKept.outboxLaw ?_ hs
  unfold State.requestHeard
  split
  next => exact ⟨rfl, rfl, rfl, rfl, rfl, rfl, rfl, rfl⟩
  next =>
    refine ⟨rfl, rfl, rfl, rfl, rfl, ?_, rfl, rfl⟩
    dsimp only
    split
    next hp => rw [hp]; rfl
    next => split <;> rfl
    next => split <;> rfl

theorem State.headerHeard_outboxLaw {s : State} (a : Addr) (hs : s.OutboxLaw) (hst : s.tx.Still) :
    (s.headerHeard a).OutboxLaw := by
  have hlatch : ∀ x : State, x = (if s.responder.latch = some a then
      { s with responder := { s.responder with latch := none } } else s) →
        x.tx = s.tx ∧ x.stepState = s.stepState ∧ x.requester = s.requester ∧ x.table = s.table
          ∧ x.responder.phase = s.responder.phase := by
    rintro x rfl
    split <;> exact ⟨rfl, rfl, rfl, rfl, rfl⟩
  unfold State.headerHeard
  dsimp only
  generalize hx : (if s.responder.latch = some a then
      { s with responder := { s.responder with latch := none } } else s) = x
  obtain ⟨htx, hstep, hrequester, htable, hphase⟩ := hlatch x hx.symm
  rw [State.outboxLaw_iff, ← hphase, ← htx, ← hstep, ← hrequester, ← htable] at hs
  rw [← htx] at hst
  split
  next u e hp =>
    rw [hp] at hs
    split
    · exact State.takeLatch_outboxLaw hs
    · rw [State.outboxLaw_iff, hp]; exact hs
  next u b total next hp =>
    split
    · exact State.takeLatch_outboxLaw (hs.withdraw_state hst)
    · rw [State.outboxLaw_iff]; exact hs
  next => rw [State.outboxLaw_iff]; exact hs

theorem State.responderState_outboxLaw {s : State} (b : StateBody) (hs : s.OutboxLaw) (hst : s.tx.Still) :
    (s.responderState b).OutboxLaw := by
  unfold State.responderState
  split
  · split
    · exact State.headerHeard_outboxLaw _ hs hst
    · exact hs
  · exact hs

/-- A chunk offered at an IN_STEP station, its service going on. -/
theorem State.offerChunk_outboxLaw {s : State} {serves : Bool} (c : Chunk)
    (hs : s.tx.Fits s.stepState serves s.requester.phase.unsent s.table.slots) (hi : s.stepState = .inStep)
    (hp : s.responder.phase.isSending = true) : (s.offer (.state c)).OutboxLaw := by
  rw [State.outboxLaw_iff]
  have hfits := hs.offer_state c (.inl hi)
  simpa [hp] using hfits

theorem State.beginService_outboxLaw {s : State} (target : Addr) (hs : s.OutboxLaw) (hi : s.stepState = .inStep) :
    (s.beginService target).OutboxLaw := by
  rw [State.outboxLaw_iff] at hs
  exact State.offerChunk_outboxLaw (s := { s with responder := _ }) _ hs hi rfl

/-- The own STATE frame has left the outbox by completion (R129). -/
theorem State.chunkSent_outboxLaw {s : State}
    (hs : s.tx.Fits s.stepState false s.requester.phase.unsent s.table.slots)
    (hp : s.responder.phase.isSending = true → s.stepState = .inStep) : s.chunkSent.OutboxLaw := by
  unfold State.chunkSent
  split
  next t b total next sent hphase =>
    split
    · exact State.offerChunk_outboxLaw (s := { s with responder := _ }) _ hs (hp (by rw [hphase]; rfl)) rfl
    · exact State.takeLatch_outboxLaw hs
  next hnot =>
    rw [State.outboxLaw_iff]
    have hidle : s.responder.phase.isSending = false := by
      cases hphase : s.responder.phase with
      | sending t b total next sent => exact absurd hphase (hnot t b total next sent)
      | idle => rfl
      | delay t e => rfl
    rwa [hidle]

/-- The own STATE frame has left the outbox by a discard (R130). -/
theorem State.chunkDiscarded_outboxLaw {s : State}
    (hs : s.tx.Fits s.stepState false s.requester.phase.unsent s.table.slots) : s.chunkDiscarded.OutboxLaw := by
  unfold State.chunkDiscarded
  split
  next => exact State.takeLatch_outboxLaw hs
  next hnot =>
    rw [State.outboxLaw_iff]
    have hidle : s.responder.phase.isSending = false := by
      cases hphase : s.responder.phase with
      | sending t b total next sent => exact absurd hphase (hnot t b total next sent)
      | idle => rfl
      | delay t e => rfl
    rwa [hidle]

/-! ### Acceptances -/

theorem State.offerPresence_outboxLaw {s : State} (hs : s.OutboxLaw) : s.offerPresence.OutboxLaw := by
  rw [State.outboxLaw_iff] at *
  by_cases hoffers : (s.transmits && reached s.tick s.presenceTick) = true
  · have htransmits : s.stepState = .inStep ∨ s.stepState = .outOfStep := by
      simp only [Bool.and_eq_true, State.transmits, Bool.or_eq_true, beq_iff_eq] at hoffers
      exact hoffers.1
    have hfits := hs.offer_presence s.fingerprint htransmits
    simpa [State.offerPresence, hoffers] using hfits
  · simpa [State.offerPresence, hoffers] using hs

theorem State.arrive_outboxLaw {s : State} (h : Header) (carried : Option Half) (epoch : Bool)
    (hs : s.OutboxLaw) : (s.arrive h carried epoch).OutboxLaw := by
  have hbusy : State.OutboxLaw (s.receiverDone.setFlagIf (h.sender == s.addr) .addressClash) :=
    State.OutboxKept.outboxLaw (by constructor <;> simp [State.receiverDone, State.lineBusy]) hs
  unfold State.arrive
  refine State.OutboxKept.outboxLaw
    (s := if epoch then State.epochArrival _ else _) (by constructor <;> rfl) ?_
  split
  · exact State.epochArrival_outboxLaw hbusy
  · exact hbusy

theorem State.QuietVote.outboxLaw {h : Header} {m t : State} (hq : State.QuietVote h m t)
    (hs : m.OutboxLaw) : t.OutboxLaw := by
  obtain ⟨-, -, htx, htable, hstep, -, -, -, hrequester, hresponder, -⟩ := hq.frame
  exact State.OutboxKept.outboxLaw (by constructor <;> simp [htx, htable, hstep, hrequester, hresponder]) hs

theorem State.vote_outboxLaw {s : State} (h : Header) (hs : s.OutboxLaw) (hst : s.tx.Still) :
    (s.vote h).OutboxLaw := by
  rcases State.vote_cases h s with hquiet | ⟨hleaves, -⟩
  · exact hquiet.outboxLaw hs
  · rw [hleaves]
    exact State.leaveStep_outboxLaw (State.OutboxKept.outboxLaw (by constructor <;> rfl) hs) hst

theorem State.monitor_outboxLaw {s : State} (h : Header) (hs : s.OutboxLaw) (hst : s.tx.Still) :
    (s.monitor h).OutboxLaw := by
  unfold State.monitor
  split
  · split
    · exact State.join_outboxLaw hs hst
    · exact hs
  · exact State.vote_outboxLaw h hs hst

theorem State.arrive_onLine (h : Header) (carried : Option Half) (epoch : Bool) (s : State) :
    (s.arrive h carried epoch).tx.onLine = s.tx.onLine := by
  unfold State.arrive
  cases epoch <;> simp [State.receiverDone, State.lineBusy, State.record]

theorem State.accept_onLine (h : Header) (carried : Option Half) (epoch : Bool) (s : State) :
    (s.accept h carried epoch).tx.onLine = s.tx.onLine := by
  rw [← State.arrive_onLine h carried epoch s, State.accept]; simp

theorem State.accept_outboxLaw {s : State} (h : Header) (carried : Option Half) (epoch : Bool)
    (hs : s.OutboxLaw) (ho : s.tx.onLine = none) : (s.accept h carried epoch).OutboxLaw := by
  have harrived := State.arrive_outboxLaw h carried epoch hs
  exact State.monitor_outboxLaw h harrived (harrived.still ((State.arrive_onLine _ _ _ s).trans ho))

/-- The contexts fit after the entry into OUT_OF_STEP. -/
theorem State.enterOutOfStep_contextsFit (s : State) : s.enterOutOfStep.ContextsFit := by
  obtain ⟨-, hresponder, -⟩ := s.enterOutOfStep_contexts
  exact ⟨fun _ => s.enterOutOfStep_stepState, fun _ => by rw [hresponder]; rfl⟩

/-- The step state stays, and no context opens: the contexts go on fitting. -/
theorem State.ContextsFit.kept {s t : State} (h : s.ContextsFit) (hstep : t.stepState = s.stepState)
    (hr : s.requester.phase = .none → t.requester.phase = .none)
    (hp : s.responder.phase = .idle → t.responder.phase = .idle) : t.ContextsFit :=
  ⟨fun hne => hstep.trans (h.requester fun hn => hne (hr hn)),
    fun hi => hp (h.responder (hstep ▸ hi))⟩

theorem State.epochArrival_contextsFit {s : State} (h : s.ContextsFit) : s.epochArrival.ContextsFit := by
  unfold State.epochArrival
  split
  · exact h.kept rfl (fun hr => by simp [hr, RequesterPhase.rebase]) fun hp => by
      simp [hp, ResponderPhase.rebase]
  · exact h

theorem State.accept_contextsFit {s : State} (h : Header) (carried : Option Half) (epoch : Bool)
    (hc : s.ContextsFit) : (s.accept h carried epoch).ContextsFit := by
  have harrived : (s.arrive h carried epoch).ContextsFit := by
    unfold State.arrive
    refine State.ContextsFit.kept (s := if epoch then State.epochArrival _ else _) ?_ rfl id id
    have hbusy : State.ContextsFit (s.receiverDone.setFlagIf (h.sender == s.addr) .addressClash) :=
      hc.kept (by simp) (by simp) (by simp)
    split
    · exact State.epochArrival_contextsFit hbusy
    · exact hbusy
  unfold State.accept State.monitor
  split
  · split
    · exact State.enterOutOfStep_contextsFit _
    · exact harrived
  · rcases State.vote_cases h (s.arrive h carried epoch) with hquiet | ⟨hleaves, -⟩
    · obtain ⟨-, -, -, -, hstep, -, -, -, hrequester, hresponder, -⟩ := hquiet.frame
      exact harrived.kept hstep (by rw [hrequester]; exact id) (by rw [hresponder]; exact id)
    · rw [hleaves]
      exact State.enterOutOfStep_contextsFit _

theorem State.ownSequenced_outboxLaw {s : State} (h : Header) (body : Sequenced) (hs : s.OutboxLaw)
    (hst : s.tx.Still) : (s.ownSequenced h body).OutboxLaw := by
  unfold State.ownSequenced
  split
  next => exact State.applyFrame_outboxLaw _ _ hs hst
  next => exact State.applyFrame_outboxLaw _ _ hs hst
  next ht => exact State.holdFrame_outboxLaw _ _ _ hs ht
  all_goals exact hs

theorem State.ownClear_outboxLaw {s : State} (tick : Tick) (epoch : Byte) (hs : s.OutboxLaw)
    (hst : s.tx.Still) : (s.ownClear tick epoch).OutboxLaw := by
  unfold State.ownClear
  split
  next => exact State.applyClear_outboxLaw hs hst
  next => exact State.applyClear_outboxLaw hs hst
  next ht => exact State.clearOutOfStep_outboxLaw _ _ hs hst ht
  all_goals exact hs

theorem State.ownState_outboxLaw {s : State} (h : Header) (body : List Byte) (hs : s.OutboxLaw)
    (ho : s.tx.onLine = none) (hc : s.ContextsFit) : (s.ownState h body).OutboxLaw := by
  unfold State.ownState
  split
  next => exact hs
  next =>
  split
  next ht => exact State.requesterState_outboxLaw _ _ _ hs ho ht hc
  next => exact State.responderState_outboxLaw _ hs (hs.still ho)
  all_goals exact hs

theorem State.ownStateReq_outboxLaw {s : State} (h : Header) (hs : s.OutboxLaw) :
    (s.ownStateReq h).OutboxLaw := by
  unfold State.ownStateReq
  split
  · exact State.requestHeard_outboxLaw _ hs
  · exact hs

/-! ### The end of a transmission (R56 to R61) -/

/-- What a completion makes of the outbox, `e` being the entry in transmission. -/
theorem State.completed_fits {s : State} {e : Entry} (hs : s.OutboxLaw) (he : s.tx.Sends e) :
    s.completed.tx.Fits s.stepState (s.responder.phase.isSending && !e.body.isKind .state)
      (s.requester.phase.unsent && !e.body.isKind .stateReq) s.table.slots := by
  rw [State.outboxLaw_iff] at hs
  exact (hs.dropSending he).congr rfl rfl rfl (by simp [State.completed, Config.maxDiscards])

/-- The completion of a frame that is neither a STATE nor a STATE_REQ keeps the law. -/
theorem State.completed_outboxLaw {s : State} {e : Entry} (hs : s.OutboxLaw) (he : s.tx.Sends e)
    (hstate : e.body.isKind .state = false) (hreq : e.body.isKind .stateReq = false) :
    s.completed.OutboxLaw := by
  have hfits := State.completed_fits hs he
  rw [hstate, hreq, Bool.not_false, Bool.and_true, Bool.and_true] at hfits
  rw [State.outboxLaw_iff]
  exact hfits

/-- A frame of the kind on the line is that of an entry in transmission. -/
theorem State.sends_entry {s : State} {k : Kind} (h : s.sends k = true) :
    ∃ e, s.tx.sendingEntry = some e ∧ s.tx.Sends e ∧ e.body.kind = k := by
  simp only [State.sends, State.sendingKind, Bool.and_eq_true, beq_iff_eq] at h
  obtain ⟨⟨-, honline⟩, hkind⟩ := h
  obtain ⟨e, he, hk⟩ := Option.map_eq_some_iff.mp hkind
  exact ⟨e, he, Transmitter.sends_of_sendingEntry honline he, hk⟩

theorem State.applyOwn_outboxLaw {s : State} (body : Sequenced) (hs : s.OutboxLaw) (hst : s.tx.Still) :
    (s.applyOwn body).OutboxLaw := by
  unfold State.applyOwn
  split
  · exact State.applyFrame_outboxLaw _ _ hs hst
  · exact hs

/-- The completion of an own CLAIM, CLOSE or EPOCH, `f` being what comes before its application. -/
theorem State.completeSequenced_outboxLaw {s : State} {k : Kind} {f : State → State} (hs : s.OutboxLaw)
    (hk : k.ordered = true) (hf : ∀ x : State, x.OutboxLaw → (f x).OutboxLaw)
    (hl : ∀ x : State, (f x).tx.onLine = x.tx.onLine) : (s.completeSequenced k f).OutboxLaw := by
  unfold State.completeSequenced
  split
  next hsends =>
    obtain ⟨e, -, he, hkind⟩ := State.sends_entry hsends
    have hother : ∀ j : Kind, j.ordered = false → e.body.isKind j = false := fun j hj => by
      rw [← Bool.not_eq_true, Body.isKind, beq_iff_eq, hkind]
      rintro rfl
      rw [hk] at hj; cases hj
    split
    next =>
      have hcompleted := State.completed_outboxLaw hs he (hother _ rfl) (hother _ rfl)
      have hbefore := hf _ hcompleted
      exact State.applyOwn_outboxLaw _ hbefore (hbefore.still ((hl _).trans s.completed_fields.1))
    next => exact hs
  next => exact hs

/-- The own STATE_REQ has left the outbox by completion (R108). -/
theorem State.requestSent_outboxLaw {s : State}
    (hs : s.tx.Fits s.stepState s.responder.phase.isSending false s.table.slots) : s.requestSent.OutboxLaw := by
  rw [State.outboxLaw_iff]
  unfold State.requestSent
  split
  next => exact hs
  next hnot =>
    have hasked := RequesterPhase.unsent_eq_false (hnot none)
    rwa [hasked]

theorem State.recheck_outboxLaw {s : State} (k : Kind) (hs : s.OutboxLaw) : (s.recheck k).OutboxLaw := by
  unfold State.recheck
  split
  · exact State.scheduleCloses_outboxLaw hs
  · exact State.offerPresence_outboxLaw hs
  all_goals exact hs

/-- The attempt of the entry in transmission ends without a discard (R56, R58, R72). -/
theorem State.returnEntry_outboxLaw {s : State} (e : Entry) {f : Entry → Entry} (hs : s.OutboxLaw)
    (ht : s.stepState = .inStep ∨ s.stepState = .outOfStep)
    (hb : ∀ e, (f e).body = e.body) (hm : ∀ e, (f e).mark = e.mark)
    (ha : ∀ e ∈ s.tx.outbox, e.sending = true → (f e).attempts < Config.maxAttempts) :
    (s.returnEntry e f).OutboxLaw := by
  have hreturned : State.OutboxLaw
      { s.rise .claimsWithdrawn s.tx.returnedClaims with tx := s.tx.returnSending f } := by
    rw [State.outboxLaw_iff] at *
    exact hs.returnSending hb hm ha ht
  unfold State.returnEntry
  dsimp only
  split
  · exact State.recheck_outboxLaw _ hreturned
  · exact hreturned

/-- A station with an entry in transmission transmits. -/
theorem State.OutboxLaw.transmits {s : State} {e : Entry} (hs : s.OutboxLaw) (he : e ∈ s.tx.outbox) :
    s.stepState = .inStep ∨ s.stepState = .outOfStep := by
  by_contra hnot
  obtain ⟨hi, ho⟩ := not_or.mp hnot
  rw [(hs.empty hi ho).1] at he
  cases he

theorem State.loseArbitration_outboxLaw {s : State} {e : Entry} (hs : s.OutboxLaw) (he : s.tx.Sends e) :
    (s.loseArbitration e).OutboxLaw := by
  refine State.returnEntry_outboxLaw e (State.OutboxKept.outboxLaw (by constructor <;> simp [State.lineBusy]) hs)
    (by simpa using hs.transmits he.mem) (fun _ => rfl) (fun _ => rfl) fun x hx _ => ?_
  exact (hs.1.loose.entries.carried x (by simpa [State.lineBusy] using hx)).1

/-- What the block of a discarded entry of kind `k` makes of the outbox (R59, R103, R109, R130). -/
theorem State.afterDiscard_outboxLaw {s : State} {e : Entry}
    (hs : s.tx.Fits s.stepState (s.responder.phase.isSending && !e.body.isKind .state)
      (s.requester.phase.unsent && !e.body.isKind .stateReq) s.table.slots)
    (ht : s.stepState = .inStep ∨ s.stepState = .outOfStep) : (s.afterDiscard e.body.kind).OutboxLaw := by
  have hother : e.body.isKind .state = false → e.body.isKind .stateReq = false → s.OutboxLaw := by
    intro hstate hreq
    rw [hstate, hreq, Bool.not_false, Bool.and_true, Bool.and_true] at hs
    rwa [State.outboxLaw_iff]
  cases hb : e.body with
  | close n => exact State.scheduleCloses_outboxLaw (hother (by rw [hb]; rfl) (by rw [hb]; rfl))
  | presence fp => exact State.offerPresence_outboxLaw (hother (by rw [hb]; rfl) (by rw [hb]; rfl))
  | epoch => exact hother (by rw [hb]; rfl) (by rw [hb]; rfl)
  | clear => exact hother (by rw [hb]; rfl) (by rw [hb]; rfl)
  | claim stamp epoch => exact hother (by rw [hb]; rfl) (by rw [hb]; rfl)
  | state c =>
    have hstate : e.body.isKind .state = true ∧ e.body.isKind .stateReq = false := by
      rw [hb]; exact ⟨rfl, rfl⟩
    refine State.chunkDiscarded_outboxLaw ?_
    simpa [hstate] using hs
  | stateReq fp n =>
    have hreq : e.body.isKind .state = false ∧ e.body.isKind .stateReq = true := by
      rw [hb]; exact ⟨rfl, rfl⟩
    have hfits : s.tx.Fits s.stepState s.responder.phase.isSending false s.table.slots := by
      simpa [hreq] using hs
    simp only [Body.kind, State.afterDiscard]
    split
    next hr => exact State.offerRequest_outboxLaw hfits hr ht
    next hr =>
      have hasked := RequesterPhase.unsent_eq_false hr
      rwa [State.outboxLaw_iff, hasked]

theorem State.discard_outboxLaw {s : State} {e : Entry} (hs : s.OutboxLaw) (he : s.tx.Sends e) :
    (s.discard e).OutboxLaw := by
  have ht := hs.transmits he.mem
  have hfits := ((State.outboxLaw_iff s).mp hs).dropSending he
  unfold State.discard
  dsimp only
  split
  next =>
    refine State.enterMute_outboxLaw (by simp) fun x hx => ?_
    rcases Transmitter.mem_dropSending hx with hx | ⟨b, -, rfl⟩
    · exact ((Transmitter.mem_waiting x s.tx).mp hx).2
    · rfl
  next hbelow =>
    exact State.afterDiscard_outboxLaw (e := e)
      (hfits.congr rfl rfl rfl (Nat.lt_of_not_le hbelow)) ht

theorem State.bitError_outboxLaw {s : State} {e : Entry} (hs : s.OutboxLaw) (he : s.tx.Sends e) :
    (s.bitError e).OutboxLaw := by
  have hbroken : State.OutboxLaw (s.driveBreak.rise .txAborts 1) :=
    State.OutboxKept.outboxLaw (by constructor <;> simp [State.driveBreak, State.lineBusy]) hs
  have hsends : (s.driveBreak.rise .txAborts 1).tx.Sends e :=
    ⟨he.online, he.mem, he.sending⟩
  unfold State.bitError
  dsimp only
  split
  next => exact State.discard_outboxLaw hbroken hsends
  next hbelow =>
    refine State.returnEntry_outboxLaw e hbroken (hbroken.transmits hsends.mem) (fun _ => rfl) (fun _ => rfl)
      fun x hx hxs => ?_
    rw [sending_unique _ e x hbroken.1 hsends.online hsends.mem hsends.sending hx hxs]
    exact Nat.lt_of_not_le hbelow

end Sys2Proof.Machine

/-! The law of the outbox through every command (O5). -/

namespace Sys2Proof.Machine

/-! ### Starting -/

theorem State.startHead_outboxLaw {s : State} {e : Entry} {rest : List Entry} (hs : s.OutboxLaw)
    (he : s.tx.outbox = e :: rest) (hl : s.tx.onLine = none) : (s.startHead e rest).OutboxLaw := by
  have ht := hs.transmits (e := e) (by simp [he])
  rw [State.outboxLaw_iff] at *
  have hmem : ∀ x ∈ (s.startHead e rest).tx.outbox, ∃ y ∈ s.tx.outbox, y.body = x.body := by
    intro x hx
    rcases List.mem_cons.mp hx with rfl | hx
    · exact ⟨e, by simp [he], rfl⟩
    · exact ⟨x, by simp [he, hx], rfl⟩
  have hqueued : ∀ k, (s.startHead e rest).tx.queued k = s.tx.queued k := fun k => by
    simp [Transmitter.queued, Transmitter.holds, State.startHead, he]
  refine ⟨hs.law.startHead he hl rfl rfl rfl rfl, fun hi ho => ?_, fun hi x hx => ?_,
    (hqueued _).trans hs.state, (hqueued _).trans hs.request, fun x hx n hb => ?_⟩
  · rcases ht with ht | ht
    · exact absurd ht hi
    · exact absurd ht ho
  · obtain ⟨y, hy, hbody⟩ := hmem x hx
    rw [← hbody]; exact hs.side hi y hy
  · obtain ⟨y, hy, hbody⟩ := hmem x hx
    exact hs.names y hy n (hbody.trans hb)

theorem State.start_outboxLaw {s : State} (n : Nat) (hs : s.OutboxLaw) : (s.start n).OutboxLaw := by
  unfold State.start
  split
  next => exact hs
  next e rest he =>
    split
    next hstart =>
      simp only [State.mayStart, Bool.and_eq_true, Option.isNone_iff_eq_none] at hstart
      obtain ⟨⟨⟨⟨⟨-, -⟩, honline⟩, -⟩, -⟩, -⟩ := hstart
      exact State.startHead_outboxLaw hs he honline
    next => exact hs

/-! ### Ticks -/

theorem State.testExpiry_outboxLaw {s : State} (hs : s.OutboxLaw) : s.testExpiry.OutboxLaw := by
  refine State.withdraw_claims_outboxLaw hs fun b hb => ?_
  cases b with
  | claim stamp epoch => rfl
  | _ => cases hb

theorem State.markAbsent_outboxLaw {s : State} (hs : s.OutboxLaw) : s.markAbsent.OutboxLaw :=
  State.OutboxKept.outboxLaw (by constructor <;> simp) hs

theorem State.testRequest_outboxLaw {s : State} (hs : s.OutboxLaw) (hc : s.ContextsFit) :
    s.testRequest.OutboxLaw := by
  unfold State.testRequest
  split
  next d hp =>
    split
    · exact State.fail_outboxLaw _ hs (hc.requester (by simp [hp])) (by simp [hp])
    · exact hs
  next => exact hs

theorem State.testChunk_outboxLaw {s : State} (hs : s.OutboxLaw) (hc : s.ContextsFit) :
    s.testChunk.OutboxLaw := by
  unfold State.testChunk
  split
  next c hp =>
    split
    · exact State.fail_outboxLaw _ hs (hc.requester (by simp [hp])) (by simp [hp])
    · exact hs
  next => exact hs

theorem State.testRetry_outboxLaw {s : State} (hs : s.OutboxLaw) (hc : s.ContextsFit) :
    s.testRetry.OutboxLaw := by
  unfold State.testRetry
  split
  next d hp =>
    split
    · exact State.nextAttempt_outboxLaw hs (hc.requester (by simp [hp]))
    · exact hs
  next => exact hs

theorem State.testDelay_outboxLaw {s : State} (hs : s.OutboxLaw) (hc : s.ContextsFit) :
    s.testDelay.OutboxLaw := by
  unfold State.testDelay
  split
  next t e hp =>
    split
    · refine State.beginService_outboxLaw t hs ?_
      by_contra hi
      have := hc.responder hi
      rw [hp] at this; cases this
    · exact hs
  next => exact hs

theorem State.testListening_outboxLaw {s : State} (hs : s.OutboxLaw) (hc : s.ContextsFit) :
    s.testListening.OutboxLaw := by
  unfold State.testListening
  split
  next hl => exact State.found_outboxLaw hs hc hl.1
  next => exact hs

/-- A failure OUT_OF_STEP leaves contexts that fit (R122 to R124). -/
theorem State.fail_contextsFit {s : State} (k : FailKind) (hc : s.ContextsFit) (ht : s.stepState = .outOfStep) :
    (s.fail k).ContextsFit := by
  have hresponder : s.responder.phase = .idle := hc.responder (by simp [ht])
  unfold State.fail
  dsimp only
  split
  · exact ⟨fun _ => ht, fun _ => hresponder⟩
  · split
    · exact ⟨fun hne => absurd rfl hne, fun _ => hresponder⟩
    · exact ⟨fun _ => ht, fun _ => hresponder⟩

theorem State.testRequest_contextsFit {s : State} (hc : s.ContextsFit) : s.testRequest.ContextsFit := by
  unfold State.testRequest
  split
  next d hp =>
    split
    · exact State.fail_contextsFit _ hc (hc.requester (by simp [hp]))
    · exact hc
  next => exact hc

theorem State.testChunk_contextsFit {s : State} (hc : s.ContextsFit) : s.testChunk.ContextsFit := by
  unfold State.testChunk
  split
  next c hp =>
    split
    · exact State.fail_contextsFit _ hc (hc.requester (by simp [hp]))
    · exact hc
  next => exact hc

theorem State.testRetry_contextsFit {s : State} (hc : s.ContextsFit) : s.testRetry.ContextsFit := by
  unfold State.testRetry
  split
  next d hp =>
    split
    · exact ⟨fun _ => hc.requester (by simp [hp]), hc.responder⟩
    · exact hc
  next => exact hc

theorem State.testDelay_contextsFit {s : State} (hc : s.ContextsFit) : s.testDelay.ContextsFit := by
  unfold State.testDelay
  split
  next t e hp =>
    split
    · refine ⟨hc.requester, fun hi => ?_⟩
      have := hc.responder hi
      rw [hp] at this; cases this
    · exact hc
  next => exact hc

/-- The tests at a new value of the counter, one after another (R74). -/
theorem State.offerTick_outboxLaw {s : State} (hs : s.OutboxLaw) (hc : s.ContextsFit) :
    s.offerTick.OutboxLaw := by
  have hmarked : s.testExpiry.scheduleCloses.offerPresence.markAbsent.OutboxLaw :=
    State.markAbsent_outboxLaw (State.offerPresence_outboxLaw
      (State.scheduleCloses_outboxLaw (State.testExpiry_outboxLaw hs)))
  have hfit : s.testExpiry.scheduleCloses.offerPresence.markAbsent.ContextsFit :=
    hc.kept (by simp) (by simp) (by simp)
  have hrequest := State.testRequest_outboxLaw hmarked hfit
  have hrequestFit := State.testRequest_contextsFit hfit
  have hchunk := State.testChunk_outboxLaw hrequest hrequestFit
  have hchunkFit := State.testChunk_contextsFit hrequestFit
  have hretry := State.testRetry_outboxLaw hchunk hchunkFit
  have hretryFit := State.testRetry_contextsFit hchunkFit
  exact State.testListening_outboxLaw (State.testDelay_outboxLaw hretry hretryFit)
    (State.testDelay_contextsFit hretryFit)

/-! ### The trigger -/

theorem State.claimEdge_outboxLaw {s : State} (hs : s.OutboxLaw) (hi : s.stepState = .inStep) :
    s.claimEdge.OutboxLaw := by
  unfold State.claimEdge
  split
  next hroom =>
    rw [State.outboxLaw_iff] at *
    rw [hi] at hs
    have hfits := hs.admitEntry (b := .claim s.tick s.table.epoch) (.inl rfl)
      ⟨fun _ => hroom, by simp [Body.kind], by simp⟩
    simpa [hi] using hfits
  next => exact State.OutboxKept.outboxLaw (by constructor <;> rfl) hs

theorem State.decideEdge_outboxLaw {s : State} (hs : s.OutboxLaw) : s.decideEdge.OutboxLaw := by
  have hrise : ∀ c, (s.rise c 1).OutboxLaw :=
    fun c => State.OutboxKept.outboxLaw (by constructor <;> rfl) hs
  unfold State.decideEdge
  split
  next => exact hrise _
  next htaken =>
    split
    · exact hrise _
    · exact State.claimEdge_outboxLaw hs (not_not.mp (not_or.mp htaken).1)

/-! ### The board -/

theorem State.respond_outboxLaw {s : State} (r : Result) (data : List Byte) (c : Commit) (hs : s.OutboxLaw) :
    (s.respond r data c).OutboxLaw := State.OutboxKept.outboxLaw (by constructor <;> rfl) hs

theorem State.taken_outboxLaw {s : State} (c : Instr) {f : State → State} (hs : s.OutboxLaw)
    (hf : (f s).OutboxLaw) : (s.taken c f).OutboxLaw := by
  unfold State.taken
  split
  · exact hf
  · exact hs

theorem State.setArmed_outboxLaw {s : State} (a : Bool) (hs : s.OutboxLaw) : (s.setArmed a).OutboxLaw := by
  unfold State.setArmed
  (repeat' split) <;> exact State.OutboxKept.outboxLaw (by constructor <;> rfl) hs

theorem State.takeOrder_outboxLaw {s : State} (hs : s.OutboxLaw) : s.takeOrder.OutboxLaw := by
  unfold State.takeOrder
  split <;> exact State.OutboxKept.outboxLaw (by constructor <;> rfl) hs

theorem State.stageEvent_outboxLaw {s : State} (n : Half) (hs : s.OutboxLaw) : (s.stageEvent n).OutboxLaw := by
  unfold State.stageEvent
  split <;> exact State.OutboxKept.outboxLaw (by constructor <;> rfl) hs

theorem State.readStage_outboxLaw {s : State} (offset length : Byte) (hs : s.OutboxLaw) :
    (s.readStage offset length).OutboxLaw := by
  unfold State.readStage
  (repeat' split) <;> exact State.respond_outboxLaw _ _ _ hs

theorem State.readCounters_outboxLaw {s : State} (first n : Byte) (hs : s.OutboxLaw) :
    (s.readCounters first n).OutboxLaw := by
  unfold State.readCounters
  split <;> exact State.respond_outboxLaw _ _ _ hs

/-- A CLEAR or EPOCH asked for is admitted in IN_STEP while none of its kind stands (R68, R171). -/
theorem State.askFrame_outboxLaw {s : State} {b : Body} (hb : b.kind = .clear ∨ b.kind = .epoch)
    (hs : s.OutboxLaw) : (s.askFrame b).OutboxLaw := by
  unfold State.askFrame
  split
  next => exact State.respond_outboxLaw _ _ _ hs
  next hi =>
  split
  next => exact State.respond_outboxLaw _ _ _ hs
  next hnot =>
    have hi := not_not.mp hi
    refine State.respond_outboxLaw _ _ _ ?_
    have hgeneral : b.kind.general = false := by rcases hb with hb | hb <;> rw [hb] <;> rfl
    have hclose : ∀ n, b ≠ .close n := by rintro n rfl; rcases hb with hb | hb <;> cases hb
    rw [State.outboxLaw_iff] at *
    rw [hi] at hs
    have hfits := hs.admitEntry (.inr hb)
      ⟨by simp [hgeneral], fun _ _ => by simpa [Transmitter.holds] using hnot, fun n hn => absurd hn (hclose n)⟩
    simpa [hi] using hfits

theorem State.askRestart_outboxLaw {s : State} (hs : s.OutboxLaw) : s.askRestart.OutboxLaw := by
  unfold State.askRestart
  split <;> exact State.respond_outboxLaw _ _ _ hs

theorem State.trail_outboxLaw {s : State} (hs : s.OutboxLaw) : s.trail.OutboxLaw :=
  State.OutboxKept.outboxLaw (by constructor <;> simp) hs

/-- An accepted SET_CONFIG finds an empty outbox (R55, R138). -/
theorem State.configure_outboxLaw {s : State} (p : Params) (hs : s.OutboxLaw) (hc : s.ContextsFit)
    (hu : s.stepState = .unconfigured) : (s.configure p).OutboxLaw := by
  obtain ⟨houtbox, hdeferred⟩ := hs.empty (by simp [hu]) (by simp [hu])
  have hidle : s.responder.phase = .idle := hc.responder (by simp [hu])
  have hnone : s.requester.phase = .none := by
    by_contra hne
    have := hc.requester hne
    rw [hu] at this; cases this
  exact State.outboxLaw_of_empty (s := s.configure p) hs.1 houtbox hdeferred
    (congrArg ResponderPhase.isSending hidle) (congrArg RequesterPhase.unsent hnone)

/-- A restart empties the outbox (R62, R147). -/
theorem State.restart_outboxLaw (s : State) : s.restart.OutboxLaw :=
  State.outboxLaw_of_empty (Transmitter.Law.of_empty rfl rfl rfl (Nat.zero_lt_succ _)) rfl rfl rfl rfl

/-! ### Every command -/

theorem State.OutboxLaw.ite {c : Prop} [Decidable c] {s t : State} (ht : c → t.OutboxLaw) (hs : s.OutboxLaw) :
    (if c then t else s).OutboxLaw := by
  split
  · exact ht ‹c›
  · exact hs

theorem State.unlessReset_outboxLaw {s : State} {f : State → State} (hf : (f s).OutboxLaw) (hs : s.OutboxLaw) :
    (s.unlessReset f).OutboxLaw := by
  unfold State.unlessReset
  split
  · exact hs
  · exact hf

theorem State.receives_onLine {s : State} (h : s.receives = true) : s.tx.onLine = none := by
  simp only [State.receives, Bool.and_eq_true, Option.isNone_iff_eq_none] at h
  exact h.2

/-- Every command keeps the law of the outbox at a station that meets the law of its contexts. -/
theorem exec_outboxLaw (c : Instr) {s t : State} (hp : s.PhaseLaw) (hs : s.OutboxLaw) (h : exec c s = .next t) :
    t.OutboxLaw := by
  have hc := hp.contextsFit
  have htaken : ∀ f : State → State, (f s).OutboxLaw → (s.taken c f).OutboxLaw :=
    fun f hf => State.taken_outboxLaw c hs hf
  have haccept : ∀ (h' : Header) (carried : Option Half) (epoch : Bool), s.receives = true →
      (s.accept h' carried epoch).OutboxLaw ∧ (s.accept h' carried epoch).tx.onLine = none :=
    fun h' carried epoch hr => ⟨State.accept_outboxLaw _ _ _ hs (State.receives_onLine hr),
      (State.accept_onLine _ _ _ s).trans (State.receives_onLine hr)⟩
  cases c with
  | pinReset => cases h; exact resetStateIsLawful.2.2.1
  | resetRelease addr rate =>
    cases h
    exact State.OutboxLaw.ite (fun _ => State.OutboxKept.outboxLaw (by constructor <;> rfl) hs) hs
  | refArrival =>
    cases h
    refine State.unlessReset_outboxLaw (State.OutboxLaw.ite (fun _ => ?_) hs) hs
    exact State.offerTick_outboxLaw hs (hc.kept rfl id id)
  | trigEdge =>
    cases h
    exact State.unlessReset_outboxLaw
      (State.decideEdge_outboxLaw (State.OutboxKept.outboxLaw (by constructor <;> rfl) hs)) hs
  | transactionOpen shifted => cases h; exact State.OutboxKept.outboxLaw (by constructor <;> simp) hs
  | transactionEnd =>
    cases h
    split
    · exact hs
    · unfold State.endTransaction
      split <;> exact State.OutboxKept.outboxLaw (by constructor <;> rfl) hs
  | statusByteEnd =>
    cases h
    exact State.OutboxLaw.ite (fun _ => State.OutboxKept.outboxLaw (by constructor <;> rfl) hs) hs
  | setConfig w g q h p v =>
    cases h
    refine htaken _ ?_
    split
    next => exact State.respond_outboxLaw _ _ _ hs
    next hun =>
      split
      · exact State.respond_outboxLaw _ _ _
          (State.configure_outboxLaw _ hs hc (by simpa [State.configured] using hun))
      · exact State.respond_outboxLaw _ _ _ hs
  | arm => cases h; exact htaken _ (State.setArmed_outboxLaw _ hs)
  | disarm => cases h; exact htaken _ (State.setArmed_outboxLaw _ hs)
  | takeOrder => cases h; exact htaken _ (State.takeOrder_outboxLaw hs)
  | takeOrderCommit =>
    cases h
    exact State.OutboxLaw.ite
      (fun _ => State.trail_outboxLaw (State.OutboxKept.outboxLaw (by constructor <;> rfl) hs)) hs
  | listEvents => cases h; exact htaken _ (State.respond_outboxLaw _ _ _ hs)
  | stageEvent number => cases h; exact htaken _ (State.stageEvent_outboxLaw _ hs)
  | readStage offset length => cases h; exact htaken _ (State.readStage_outboxLaw _ _ hs)
  | readStatus => cases h; exact htaken _ (State.respond_outboxLaw _ _ _ hs)
  | readCounters first n => cases h; exact htaken _ (State.readCounters_outboxLaw _ _ hs)
  | readRoster => cases h; exact htaken _ (State.respond_outboxLaw _ _ _ hs)
  | ackFlags mask => cases h; exact htaken _ (State.respond_outboxLaw _ _ _ hs)
  | ackFlagsCommit =>
    cases h
    exact State.OutboxLaw.ite (fun _ => State.OutboxKept.outboxLaw (by constructor <;> simp) hs) hs
  | askClear => cases h; exact htaken _ (State.askFrame_outboxLaw (.inl rfl) hs)
  | askEpoch => cases h; exact htaken _ (State.askFrame_outboxLaw (.inr rfl) hs)
  | restartStation => cases h; exact htaken _ (State.askRestart_outboxLaw hs)
  | restartStationCommit =>
    cases h
    refine State.OutboxLaw.ite (fun _ => ?_) hs
    split
    · exact State.trail_outboxLaw hs
    · exact State.trail_outboxLaw s.restart_outboxLaw
  | unknownCommand code =>
    cases h
    split
    · exact hs
    · exact htaken _ (State.respond_outboxLaw _ _ _ hs)
  | transmissionStart recessive => cases h; exact State.start_outboxLaw _ hs
  | arbitrationLoss =>
    cases h
    refine State.OutboxLaw.ite (fun honline => ?_) hs
    split
    next e he =>
      simp only [State.onLine, Bool.and_eq_true] at honline
      exact State.loseArbitration_outboxLaw hs (Transmitter.sends_of_sendingEntry honline.2 he)
    next => exact hs
  | bitError =>
    cases h
    refine State.OutboxLaw.ite (fun honline => ?_) hs
    split
    next e he =>
      simp only [State.onLine, Bool.and_eq_true] at honline
      exact State.bitError_outboxLaw hs (Transmitter.sends_of_sendingEntry honline.2 he)
    next => exact hs
  | deferredOfferAdmitted =>
    cases h
    refine State.unlessReset_outboxLaw ?_ hs
    rw [admitDeferred_full s.tx hs.1.full]
    exact hs
  | ownClaimCompletes =>
    cases h
    exact State.completeSequenced_outboxLaw hs rfl
      (fun x hx => State.OutboxKept.outboxLaw (by constructor <;> rfl) hx) fun _ => rfl
  | ownCloseCompletes =>
    cases h
    exact State.completeSequenced_outboxLaw hs rfl (fun _ hx => hx) fun _ => rfl
  | ownEpochCompletes =>
    cases h
    exact State.completeSequenced_outboxLaw hs rfl (fun _ hx => State.epochArrival_outboxLaw hx)
      fun _ => by simp
  | ownClearCompletes =>
    cases h
    refine State.OutboxLaw.ite (fun hsends => ?_) hs
    obtain ⟨e, -, he, hkind⟩ := State.sends_entry hsends
    have hdone := State.completed_outboxLaw hs he (by simp [Body.isKind, hkind]) (by simp [Body.isKind, hkind])
    exact State.OutboxLaw.ite (fun _ => State.applyClear_outboxLaw hdone s.completed_still) hdone
  | ownStateCompletes =>
    cases h
    refine State.OutboxLaw.ite (fun hsends => ?_) hs
    obtain ⟨e, -, he, hkind⟩ := State.sends_entry hsends
    have hstate : e.body.isKind .state = true ∧ e.body.isKind .stateReq = false := by
      simp [Body.isKind, hkind]
    refine State.chunkSent_outboxLaw (s := s.completed) ?_ fun hsending => ?_
    · simpa [hstate] using State.completed_fits hs he
    · by_contra hi
      have := hc.responder (by simpa using hi)
      simp [this, ResponderPhase.isSending] at hsending
  | ownStateReqCompletes =>
    cases h
    refine State.OutboxLaw.ite (fun hsends => ?_) hs
    obtain ⟨e, -, he, hkind⟩ := State.sends_entry hsends
    have hreq : e.body.isKind .state = false ∧ e.body.isKind .stateReq = true := by
      simp [Body.isKind, hkind]
    refine State.requestSent_outboxLaw (s := s.completed) ?_
    simpa [hreq] using State.completed_fits hs he
  | ownPresenceCompletes =>
    cases h
    refine State.OutboxLaw.ite (fun hsends => ?_) hs
    obtain ⟨e, -, he, hkind⟩ := State.sends_entry hsends
    exact State.completed_outboxLaw hs he (by simp [Body.isKind, hkind]) (by simp [Body.isKind, hkind])
  | frameDiscarded fault =>
    cases h
    exact State.OutboxLaw.ite (fun _ => State.OutboxKept.outboxLaw (by constructor <;> rfl) hs) hs
  | claimAccepted h' stamp epoch =>
    cases h
    refine State.OutboxLaw.ite (fun hr => ?_) hs
    obtain ⟨hlaw, honline⟩ := haccept h' none false hr
    exact State.ownSequenced_outboxLaw _ _ hlaw (hlaw.still honline)
  | closeAccepted h' number =>
    cases h
    refine State.OutboxLaw.ite (fun hr => ?_) hs
    obtain ⟨hlaw, honline⟩ := haccept h' none false hr
    exact State.ownSequenced_outboxLaw _ _ hlaw (hlaw.still honline)
  | clearAccepted h' tick epoch =>
    cases h
    refine State.OutboxLaw.ite (fun hr => ?_) hs
    obtain ⟨hlaw, honline⟩ := haccept h' none false hr
    exact State.ownClear_outboxLaw _ _ hlaw (hlaw.still honline)
  | epochAccepted h' =>
    cases h
    refine State.OutboxLaw.ite (fun hr => ?_) hs
    obtain ⟨hlaw, honline⟩ := haccept h' none true hr
    exact State.ownSequenced_outboxLaw _ _ hlaw (hlaw.still honline)
  | stateAccepted h' body =>
    cases h
    refine State.OutboxLaw.ite (fun hr => ?_) hs
    split
    · obtain ⟨hlaw, honline⟩ := haccept h' none false hr
      exact State.ownState_outboxLaw _ _ hlaw honline (State.accept_contextsFit _ _ _ hc)
    · exact State.OutboxKept.outboxLaw (by constructor <;> rfl) hs
  | stateReqAccepted h' fingerprint attempt =>
    cases h
    exact State.OutboxLaw.ite (fun hr => State.ownStateReq_outboxLaw _ (haccept _ _ _ hr).1) hs
  | presenceAccepted h' fingerprint =>
    cases h
    exact State.OutboxLaw.ite (fun hr => (haccept _ _ _ hr).1) hs
  | closeDueReached => cases h; exact State.unlessReset_outboxLaw (State.scheduleCloses_outboxLaw hs) hs
  | claimExpiry => cases h; exact State.unlessReset_outboxLaw (State.testExpiry_outboxLaw hs) hs
  | presenceDue => cases h; exact State.unlessReset_outboxLaw (State.offerPresence_outboxLaw hs) hs
  | absence => cases h; exact State.unlessReset_outboxLaw (State.markAbsent_outboxLaw hs) hs
  | requestDeadline => cases h; exact State.unlessReset_outboxLaw (State.testRequest_outboxLaw hs hc) hs
  | chunkDeadline => cases h; exact State.unlessReset_outboxLaw (State.testChunk_outboxLaw hs hc) hs
  | retryTick => cases h; exact State.unlessReset_outboxLaw (State.testRetry_outboxLaw hs hc) hs
  | answerDelayEnd => cases h; exact State.unlessReset_outboxLaw (State.testDelay_outboxLaw hs hc) hs
  | listeningEnd => cases h; exact State.unlessReset_outboxLaw (State.testListening_outboxLaw hs hc) hs
  | lineIdle =>
    cases h
    exact State.OutboxLaw.ite (fun _ => State.OutboxKept.outboxLaw (by constructor <;> rfl) hs) hs
  | startBitTaken =>
    cases h
    exact State.OutboxLaw.ite (fun _ => State.OutboxKept.outboxLaw (by constructor <;> rfl) hs) hs
  | breakEnd =>
    cases h
    exact State.OutboxLaw.ite (fun _ => State.OutboxKept.outboxLaw (by constructor <;> rfl) hs) hs
  | responseEnd => cases h; exact State.OutboxLaw.ite (fun _ => State.trail_outboxLaw hs) hs

/-- Settles O5: the command at the front keeps the law, and so does idling. -/
theorem everyStepKeepsTheOutboxLaw : Obligations.EveryStepKeepsTheOutboxLaw := by
  intro s t hp hs h
  unfold step at h
  split at h
  next => cases h; exact hs
  next c rest _ => exact exec_outboxLaw c (s := { s with pending := rest }) hp hs h

end Sys2Proof.Machine

/-! Acceptances that keep the step state, the CLOSE accepted, and the own CLEAR (O38, O44). -/

namespace Sys2Proof.Machine

/-! ### Acceptances that keep the step state, an EPOCH's among them -/

/-- An arrival sets no flag but ADDRESS_CLASH (R67). -/
theorem State.arrive_hasFlag_other (h : Header) (carried : Option Half) (epoch : Bool) (f : Flag) (s : State)
    (hf : f ≠ .addressClash) : (s.arrive h carried epoch).hasFlag f = s.hasFlag f := by
  have hflags : (s.arrive h carried epoch).flags = (s.arrive h carried false).flags := by
    cases epoch with
    | false => rfl
    | true => exact (State.epochArrival_facts _).2.1
  rw [State.hasFlag, hflags]
  exact State.arrive_hasFlag h carried f s hf

/-- A frame that carries no fingerprint leaves the sender's MISMATCHED mark (R99). -/
theorem State.arrive_mark (h : Header) (epoch : Bool) (s : State) :
    ((s.arrive h none epoch).roster.entry h.sender).mismatched = (s.roster.entry h.sender).mismatched := by
  obtain ⟨-, hpeer, hothers, -⟩ := State.arrive_facts h none epoch s _ rfl
  by_cases hown : h.sender = s.addr
  · obtain ⟨-, -, -, hmark, -⟩ := hothers h.sender (.inr hown)
    exact hmark
  · obtain ⟨-, -, -, hmark, -⟩ := hpeer hown
    exact hmark

theorem State.KeepsStep.applies {h : Header} {s : State} (hk : s.KeepsStep h) : s.applies = true := by
  rcases hk with hk | ⟨hk, -⟩ <;> simp [State.applies, hk]

/-- At a station that applies ordered frames the rest of step 3 is the vote (R66). -/
theorem State.accept_eq_vote (h : Header) (carried : Option Half) (epoch : Bool) {s : State}
    (ha : s.applies = true) : s.accept h carried epoch = (s.arrive h carried epoch).vote h := by
  have hnot : s.stepState ≠ .listening := fun hl => by simp [State.applies, hl] at ha
  unfold State.accept State.monitor
  rw [if_neg (by simpa using hnot)]

/-- A vote that keeps the step state is quiet, whatever the frame's kind. -/
theorem State.KeepsStep.accept_quiet_vote {h : Header} {s : State} (hk : s.KeepsStep h) (epoch : Bool) :
    State.QuietVote h (s.arrive h none epoch) (s.accept h none epoch) := by
  rw [State.accept_eq_vote h none epoch hk.applies]
  refine (State.vote_cases h _).resolve_right fun ⟨_, hvotes, hdiffers, hi, hthreshold⟩ => ?_
  simp only [State.votes, State.arrive_mark, Bool.and_eq_true, Bool.not_eq_true'] at hvotes
  obtain ⟨⟨-, hin⟩, hmatched⟩ := hvotes
  simp only [State.agrees, State.arrive_frame] at hdiffers hi hthreshold
  rcases hk with hmute | ⟨-, hnot | hmis | ⟨hcount, hdigest⟩ | hbelow⟩
  · rw [hmute] at hi; cases hi
  · rw [hin] at hnot; cases hnot
  · rw [hmatched] at hmis; cases hmis
  · simp [hcount, hdigest] at hdiffers
  · omega

/-- A vote that keeps the step state sets no flag but DIVERGED (R96). -/
theorem State.QuietVote.hasFlag {h : Header} {m t : State} (hq : State.QuietVote h m t) (f : Flag)
    (hf : f ≠ .diverged) : t.hasFlag f = m.hasFlag f := by
  cases hq with
  | noVote => rfl
  | agree => rfl
  | below => rfl
  | diverged => exact State.hasFlag_setFlag_other _ _ _ (Ne.symm hf)

theorem State.applies_iff (s : State) : s.applies = true ↔ s.stepState = .inStep ∨ s.stepState = .mute := by
  simp [State.applies]

/-- A CLAIM, CLOSE or EPOCH goes to the Engine where ordered frames are applied (R1). -/
theorem State.ownSequenced_of_applies (h : Header) (body : Sequenced) (m : State) (ha : m.applies = true) :
    m.ownSequenced h body = m.applyFrame h.sender body := by
  unfold State.ownSequenced
  rcases (m.applies_iff).mp ha with hi | hi <;> rw [hi]

/-- A CLEAR goes to the Engine where ordered frames are applied (R1). -/
theorem State.ownClear_of_applies (tick : Tick) (epoch : Byte) (m : State) (ha : m.applies = true) :
    m.ownClear tick epoch = m.applyClear := by
  unfold State.ownClear
  rcases (m.applies_iff).mp ha with hi | hi <;> rw [hi]

/-- The station `m` has taken a frame that is no EPOCH from the line and recorded it, and has kept its step
state: what its owner finds. -/
structure State.AcceptedQuietly (h : Header) (s m : State) : Prop where
  applies : m.applies = true
  rx : m.rx = .waitIdle
  tick : m.tick = s.tick
  tx : m.tx = { s.tx with recessive := 0 }
  table : m.table = s.table
  stepState : m.stepState = s.stepState
  lastClaimed : m.lastClaimed = s.lastClaimed
  listeningEnd : m.listeningEnd = s.listeningEnd
  requester : m.requester = s.requester
  responder : m.responder = s.responder
  counter : ∀ k, k ≠ .disagreements → m.counter k = s.counter k
  flag : ∀ f, f ≠ .addressClash → f ≠ .diverged → m.hasFlag f = s.hasFlag f
  recorded : s.RecordedPlain h m

theorem State.KeepsStep.acceptedQuietly {h : Header} {s : State} (hk : s.KeepsStep h) :
    s.AcceptedQuietly h (s.accept h none false) := by
  obtain ⟨prx, ptick, ptx, pclaimed, -, plistening, preq, presp, pcounters⟩ := State.arrive_plain h none s
  obtain ⟨qrx, qtick, qtx, qtable, qstep, qclaimed, -, qlistening, qreq, qresp, qcounter⟩ :=
    (hk.accept_quiet_vote false).frame
  have hstep : (s.accept h none false).stepState = s.stepState := by rw [qstep]; simp
  refine ⟨?_, qrx.trans prx, qtick.trans ptick, qtx.trans ptx, by rw [qtable]; simp, hstep,
    qclaimed.trans pclaimed, qlistening.trans plistening, qreq.trans preq, qresp.trans presp, fun k hne => ?_,
    fun f hc hd => ?_, State.accept_recorded h none false s⟩
  · rw [State.applies, hstep]; exact hk.applies
  · rw [qcounter k hne, State.counter, pcounters]; rfl
  · rw [(hk.accept_quiet_vote false).hasFlag f hd, State.arrive_hasFlag_other _ _ _ _ _ hc]

/-! ### A CLOSE (R33 to R37) -/

/-- What an offer does to the Order Queue and to the counters is read from the arm state, the queue and the
counters. -/
theorem State.offerOrder_queue_congr {x y : State} (o : Order) (ha : x.armed = y.armed)
    (ho : x.orders = y.orders) : (x.offerOrder o).orders = (y.offerOrder o).orders
      ∧ ∀ k, x.counter k = y.counter k → (x.offerOrder o).counter k = (y.offerOrder o).counter k := by
  have hflags := State.offerOrder_congr (x := { x with flags := y.flags }) (y := y) o ha ho rfl
  have hanswer : ∀ z : State, State.orderAnswer o.number { z with flags := y.flags } = z.orderAnswer o.number :=
    fun _ => rfl
  have hsame : (State.offerOrder o { x with flags := y.flags }).orders = (x.offerOrder o).orders
      ∧ (State.offerOrder o { x with flags := y.flags }).counters = (x.offerOrder o).counters := by
    unfold State.offerOrder
    rw [hanswer]
    split <;> exact ⟨rfl, rfl⟩
  refine ⟨hsame.1.symm.trans hflags.1, fun k hk => ?_⟩
  have := hflags.2.2 k hk
  rwa [State.counter, hsame.2] at this

/-- Settles O44: the quiet acceptance, then the close of the record or the void case. -/
theorem acceptedCloseIsApplied : Obligations.AcceptedCloseIsApplied := by
  intro h n s hr hk hl
  have hq := hk.acceptedQuietly
  have horders : (s.accept h none false).orders = s.orders := by simp
  have hparams : (s.accept h none false).params = s.params := by simp
  have harmed : (s.accept h none false).armed = s.armed := by simp
  have hstage : (s.accept h none false).stage = s.stage := by simp
  have hexec : exec (.closeAccepted h n) s
      = .next ((s.accept h none false).applyFrame h.sender (.close n)) := by
    simp only [exec, execCloseAccepted, hr, if_true, State.ownSequenced_of_applies h _ _ hq.applies]
  have hrecorded := hq.recorded.ownSequenced h (.close n)
  rw [State.ownSequenced_of_applies h _ _ hq.applies] at hrecorded
  refine ⟨_, hexec, ?_⟩
  generalize s.accept h none false = m at *
  have ftx := State.applyFrame_close_tx h.sender n m
  have ftable := State.applyFrame_table h.sender (.close n) m
  dsimp only at ftable
  rw [hq.table, hparams] at ftable
  obtain ⟨fcount, fdigest, fnext, fepoch⟩ := Table.closed_frame s.params.q.toNat h.sender n m.closeNote
    (s.table.advance (digestedBytes h.sender (.close n)))
  rw [← ftable] at fcount fdigest fnext fepoch
  have hstill : m.tx.Still := by rw [hq.tx]; exact hl.still (State.receives_onLine hr)
  refine ⟨by simp [hq.rx], by simp [hq.stepState], ?_, fcount, fdigest, fnext, fepoch, fun x hx => ?_,
    by simp [hq.tick], by simp [hq.requester], by simp [hq.responder], by simpa using hstage,
    by simpa using harmed, hrecorded, fun habsent => ?_, fun before r after hslots hbefore hnumber => ?_⟩
  · rw [(State.applyFrame_counters _ _ _).1, hq.counter _ (by decide)]
  · rw [ftx] at hx
    simpa using (hstill.mem_withdraw _ hx).2.1
  · obtain ⟨forders, -⟩ := State.applyFrame_close_absent h.sender n m (by rw [hq.table]; exact habsent)
    rw [ftable, Table.closed_of_absent _ _ _ _ (s.table.advance _) habsent]
    exact ⟨rfl, rfl, rfl, forders.trans horders⟩
  · have hnote : m.closeNote r = if s.params.q.toNat ≤ r.members.length
        then (s.orderAnswer n).note else .noOrder := by
      simp [State.closeNote, EventRecord.meets, State.orderAnswer, hnumber, hparams, harmed, horders]
    have horder : r.order = { number := n, epoch := r.epoch, t0 := r.t0, opener := r.opener,
                              members := r.members.length } := by rw [← hnumber]; rfl
    rw [ftable, Table.closed_of_found _ _ _ _ (s.table.advance _) before after r hslots hbefore hnumber]
    refine ⟨rfl, rfl, ?_, fun o hoffer => ?_⟩
    · simp only [pushHistory_eq, EventRecord.closed, EventRecord.meets, closeCause, hnote,
        decide_eq_true_eq]
      rfl
    · obtain ⟨x, hx, forders, -, fcounter⟩ := State.applyFrame_close_found h.sender n m before after r
        (by rw [hq.table]; exact hslots) hbefore hnumber
      simp only [EventRecord.meets, hparams, decide_eq_true_eq, horder] at hx
      rw [forders, fcounter _ (by decide) (by decide), fcounter _ (by decide) (by decide), hx, hoffer]
      split
      · obtain ⟨hqueue, hcounter⟩ := State.offerOrder_queue_congr (x := m) (y := s)
          { number := n, epoch := r.epoch, t0 := r.t0, opener := r.opener, members := r.members.length }
          harmed horders
        exact ⟨hqueue, hcounter _ (hq.counter _ (by decide)), hcounter _ (hq.counter _ (by decide))⟩
      · exact ⟨horders, hq.counter _ (by decide), hq.counter _ (by decide)⟩

/-! ### A CLEAR (R39 to R42) -/

/-- A CLEAR where it is applied: orders, streak, counters and flags (R40, R156). -/
theorem State.applyClear_fields (s : State) :
    s.applyClear.orders = [] ∧ s.applyClear.streak = 0
      ∧ s.applyClear.counters = Counters.rise .framesApplied 1 s.counters
      ∧ ∀ f, s.applyClear.hasFlag f = (s.hasFlag f || (!s.orders.isEmpty && Flag.ordersFlushed == f)) := by
  have hnone : ∀ (k : Kind) (t : Transmitter), k ≠ .claim → t.withdrawnClaims (Body.isKind k) = 0 :=
    fun k t hk => Transmitter.withdrawnClaims_zero _ _ fun b hb => Body.isKind_other hb (Ne.symm hk)
  refine ⟨by simp [State.applyClear, State.flushOrders], by simp [State.applyClear], ?_, fun f => ?_⟩
  · simp [State.applyClear, State.abandonResponder, hnone .close, hnone .state, Counters.rise_zero]
  · rw [← State.hasFlag_setFlagIf]
    simp [State.applyClear, State.abandonResponder, State.flushOrders, State.hasFlag, State.setFlagIf]

/-- The cleared table, written out (R39). -/
theorem Table.cleared_eq (fingerprint : Half) (t : Table) : t.cleared fingerprint =
    { count := 0, digest := fingerprint, next := 0, epoch := t.epoch, overflow := 0, stale := 0, void := 0,
      slots := [], history := [] } := rfl

/-- Settles O38: the completion, then the CLEAR. -/
theorem ownClearIsApplied : Obligations.OwnClearIsApplied := by
  intro s e hr ho hl he hs hb ha
  have hsends : s.tx.Sends e := ⟨ho, he, hs⟩
  have hentry := sendingEntry_eq s.tx e hl ho he hs
  have hexec : exec .ownClearCompletes s = .next s.completed.applyClear := by
    have hkind : s.sends .clear = true := by simp [State.sends, State.sendingKind, hr, ho, hentry, hb, Body.kind]
    simp [exec, execOwnClearCompletes, hkind, ha]
  obtain ⟨conline, cdiscards, cyielding, crx, csent, ctable, ccounters, corders, cflags⟩ := s.completed_fields
  obtain ⟨horders, hstreak, hcounters, hflag⟩ := s.completed.applyClear_fields
  have hclear : s.completed.tx.queued .clear = false := by
    have hgone := hsends.dropSending_queued hl .clear (by decide) (by decide)
    rw [hb] at hgone
    exact hgone.trans (by simp [Body.isKind, Body.kind])
  refine ⟨_, hexec, by simp [conline], by simp [cdiscards], by simp [cyielding], by simp [crx],
    by simp [csent], by simp, by simp, ?_, ?_, horders, ?_, hstreak, State.applyClear_responder _,
    fun x hx => ?_, fun hd => ?_⟩
  · rw [State.counter, hcounters, ccounters]; exact Counters.read_rise_self _ _ _
  · rw [State.applyClear_table, Table.cleared_eq, ctable]; simp
  · rw [hflag, corders, State.hasFlag, cflags]; simp [State.hasFlag]
  · rw [State.applyClear_tx] at hx
    have hgone := (s.completed_still.withdraw _).withdraw_queued (Body.isKind .state) _
      (s.completed_still.withdraw_queued (Body.isKind .close) _ hclear)
    simp only [Transmitter.queued, Transmitter.holds, Bool.or_eq_false_iff, List.any_eq_false] at hgone
    obtain ⟨hsending, hclose, hstate, -⟩ := s.completed_still.mem_withdraw_withdraw _ _ hx
    exact ⟨hsending, hclose, hstate, by simpa using hgone.1 x hx⟩
  · obtain ⟨houtbox, hdeferred⟩ := State.completed_outbox_of_nil hd
    obtain ⟨hfirst, hnil⟩ := s.completed_still.withdraw_of_nil (Body.isKind .close) hdeferred
    rw [State.applyClear_tx, ((s.completed_still.withdraw _).withdraw_of_nil _ hnil).1, hfirst, houtbox,
      List.filter_filter]
    exact List.filter_congr fun x _ => Bool.and_comm _ _

end Sys2Proof.Machine

/-! The CLEAR accepted, where it is applied and where it returns the station to step (O45). -/

namespace Sys2Proof.Machine

/-! ### A CLEAR out of step (R41) -/

/-- What a CLEAR makes of a station that is OUT_OF_STEP (R39 to R41, R78, R115, R140). -/
structure State.ClearedOutOfStep (sent : Tick) (era : Byte) (s t : State) : Prop where
  counters : t.counters = Counters.rise .framesApplied 1 s.counters
  table : t.table = { Table.founding s.fingerprint with epoch := era }
  stepState : t.stepState = .inStep
  tick : t.tick = sent + 1
  lastClaimed : t.lastClaimed = none
  requester : t.requester = Requester.idle
  responder : t.responder = Responder.idle
  listeningEnd : t.listeningEnd = s.listeningEnd.map (rebase s.tick (sent + 1))
  orders : t.orders = []
  streak : t.streak = 0
  flag : ∀ f, t.hasFlag f = (s.hasFlag f || (!s.orders.isEmpty && Flag.ordersFlushed == f))

theorem State.clearOutOfStep_cleared (tick : Tick) (epoch : Byte) (s : State) :
    s.ClearedOutOfStep tick epoch (s.clearOutOfStep tick epoch) := by
  obtain ⟨n, hn⟩ : ∃ n, n = { s with requester := Requester.idle }.withdraw (Body.isKind .stateReq) := ⟨_, rfl⟩
  have hcounters : n.counters = s.counters := by
    have hnone : s.tx.withdrawnClaims (Body.isKind .stateReq) = 0 :=
      Transmitter.withdrawnClaims_zero _ _ fun b hb => Body.isKind_other hb (by decide)
    simp [hn, hnone, State.withdraw, Counters.rise_zero]
  obtain ⟨forders, fstreak, fcounters, fflag⟩ := n.applyClear_fields
  have fflags : ∀ f, n.applyClear.hasFlag f = (s.hasFlag f || (!s.orders.isEmpty && Flag.ordersFlushed == f)) :=
    fun f => by rw [fflag]; simp [hn, State.hasFlag]
  have fresponder := n.applyClear_responder
  have ftable := n.applyClear_table
  have happ : s.clearOutOfStep tick epoch = State.computeDues
      { State.setTick (tick + 1) { n.applyClear with table := { n.applyClear.table with epoch := epoch } } with
        stepState := .inStep } := by rw [hn]; rfl
  rw [happ]
  have hlistening : n.applyClear.listeningEnd = s.listeningEnd ∧ n.applyClear.tick = s.tick
      ∧ n.applyClear.requester = Requester.idle ∧ n.fingerprint = s.fingerprint := by simp [hn]
  obtain ⟨flistening, ftick, frequester, hfingerprint⟩ := hlistening
  generalize n.applyClear = m at *
  constructor
  case counters => simp [fcounters, hcounters]
  case table => simp [State.computeDues, ftable, hfingerprint, Table.cleared, Table.founding, Table.reset]
  case flag => intro f; rw [← fflags]; simp [State.hasFlag]
  all_goals simp [flistening, ftick, frequester, fresponder, forders, fstreak, RequesterPhase.rebase,
    ResponderPhase.rebase, Requester.idle, Responder.idle]

/-! ### What the CLEAR finds -/

/-- The station `m` has taken a CLEAR from the line and recorded it, and stands OUT_OF_STEP: what the CLEAR
that returns it to step finds. -/
structure State.AcceptedOutOfStep (h : Header) (s m : State) : Prop where
  stepState : m.stepState = .outOfStep
  rx : m.rx = .waitIdle
  listeningEnd : m.listeningEnd = none
  counter : ∀ k, k ≠ .disagreements → k ≠ .claimsWithdrawn → m.counter k = s.counter k
  flag : ∀ f, f ≠ .addressClash → f ≠ .leftStep → m.hasFlag f = s.hasFlag f
  leftStep : m.hasFlag .leftStep = (s.hasFlag .leftStep || decide (s.LeavesStep h))

/-- The station has entered OUT_OF_STEP from a state that is the old one but for what an acceptance may
change. -/
theorem State.AcceptedOutOfStep.of_entered {h : Header} {s n : State} (hstill : n.tx.Still)
    (hrx : n.rx = .waitIdle) (hlistening : n.listeningEnd = none)
    (hcounter : ∀ k, k ≠ .disagreements → n.counter k = s.counter k)
    (hflag : ∀ f, f ≠ .addressClash → f ≠ .leftStep → n.hasFlag f = s.hasFlag f)
    (hleft : n.hasFlag .leftStep = (s.hasFlag .leftStep || decide (s.LeavesStep h))) :
    s.AcceptedOutOfStep h n.enterOutOfStep := by
  obtain ⟨-, hflags, -, -, -, hout, -⟩ := n.enterOutOfStep_facts
  have hsame : ∀ f, n.enterOutOfStep.hasFlag f = n.hasFlag f := fun f => by rw [State.hasFlag, hflags]; rfl
  refine ⟨hout, by simpa using hrx, by simpa using hlistening, fun k hd hw => ?_,
    fun f hc hl => (hsame f).trans (hflag f hc hl), (hsame _).trans hleft⟩
  rw [n.enterOutOfStep_counter k hstill, if_neg hw, hcounter k hd]

theorem State.Rejoins.acceptedOutOfStep {h : Header} {s : State} (hj : s.Rejoins h) (hr : s.receives = true)
    (hp : s.PhaseLaw) (ho : s.tx.Law) : s.AcceptedOutOfStep h (s.accept h none false) := by
  obtain ⟨-, -, -, hheld, -⟩ := hp
  have hlistening : s.stepState ≠ .listening → s.listeningEnd = none := fun hne => by
    rw [← Option.not_isSome_iff_eq_none]; exact fun hsome => hne (hheld.mp hsome)
  obtain ⟨prx, -, ptx, -, -, plistening, -, -, pcounters⟩ := State.arrive_plain h none s
  have hstill : (s.arrive h none false).tx.Still := by rw [ptx]; exact ho.still (State.receives_onLine hr)
  have hcounter : ∀ k, (s.arrive h none false).counter k = s.counter k := fun k => by
    rw [State.counter, pcounters]; rfl
  have hflag := fun f hf => State.arrive_hasFlag h none f s hf
  rcases id hj with hout | hleaves | ⟨hlis, hin⟩
  · have hnot : ¬s.LeavesStep h := fun hl => by rw [hl.1] at hout; cases hout
    rw [State.accept_outOfStep h none s hout]
    exact ⟨by simpa using hout, prx, plistening.trans (hlistening (by simp [hout])), fun k _ _ => hcounter k,
      fun f hc _ => hflag f hc, by rw [hflag _ (by decide)]; simp [hnot]⟩
  · rw [hleaves.accept_eq none false (.inl rfl)]
    refine State.AcceptedOutOfStep.of_entered (by simpa using hstill) (by simpa using prx)
      (by simpa using plistening.trans (hlistening (by simp [hleaves.1]))) (fun k hd => ?_) (fun f hc hl => ?_) ?_
    · exact (Counters.read_rise_other _ _ _ _ (Ne.symm hd)).trans (hcounter k)
    · rw [State.hasFlag_setFlag_other _ _ _ (Ne.symm hl)]; exact hflag f hc
    · rw [State.hasFlag_setFlag_self]; simp [hleaves]
  · have hnot : ¬s.LeavesStep h := fun hl => by rw [hl.1] at hlis; cases hlis
    have hacc : s.accept h none false = (s.arrive h none false).join := by
      unfold State.accept State.monitor
      rw [if_pos (by simpa using hlis), if_pos hin]
    rw [hacc]
    exact State.AcceptedOutOfStep.of_entered hstill prx rfl (fun k _ => hcounter k) (fun f hc _ => hflag f hc)
      ((hflag _ (by decide)).trans (by simp [hnot]))

/-! ### The obligation -/

/-- A station with an empty table that neither serves nor asks has no CLOSE, STATE or STATE_REQ queued. -/
theorem State.OutboxLaw.none_queued {t : State} (h : t.OutboxLaw) (hslots : t.table.slots = [])
    (hresponder : t.responder = Responder.idle) (hrequester : t.requester = Requester.idle) :
    ∀ x ∈ t.tx.outbox, x.body.isKind .close = false ∧ x.body.isKind .state = false
      ∧ x.body.isKind .stateReq = false := by
  obtain ⟨-, -, -, hstate, hrequest, hnames⟩ := (t.outboxLaw_iff).mp h
  have hgone : ∀ k, t.tx.queued k = false → ∀ x ∈ t.tx.outbox, x.body.isKind k = false := fun k hk x hx => by
    simp only [Transmitter.queued, Transmitter.holds, Bool.or_eq_false_iff, List.any_eq_false] at hk
    simpa using hk.1 x hx
  rw [hresponder] at hstate
  rw [hrequester] at hrequest
  refine fun x hx => ⟨?_, hgone _ hstate x hx, hgone _ hrequest x hx⟩
  cases hb : x.body with
  | close n =>
    obtain ⟨r, hr, -⟩ := hnames x hx n hb
    rw [hslots] at hr; cases hr
  | _ => rfl

/-- Settles O45: the CLEAR at a station that keeps its step state, and at one that stands OUT_OF_STEP. -/
theorem acceptedClearIsApplied : Obligations.AcceptedClearIsApplied := by
  intro h tick epoch s hr hp ho hcase
  have hexec : exec (.clearAccepted h tick epoch) s = .next ((s.accept h none false).ownClear tick epoch) := by
    simp only [exec, execClearAccepted, hr, if_true]
  have hlaw := exec_outboxLaw _ hp ho hexec
  have hrecorded : s.RecordedPlain h ((s.accept h none false).ownClear tick epoch) :=
    (State.accept_recorded h none false s).ownClear tick epoch
  refine ⟨_, hexec, ?_⟩
  have horders : (s.accept h none false).orders = s.orders := by simp
  have hfingerprint : (s.accept h none false).fingerprint = s.fingerprint := by simp
  have hstage : ((s.accept h none false).ownClear tick epoch).stage = s.stage := by simp
  have harmed : ((s.accept h none false).ownClear tick epoch).armed = s.armed := by simp
  by_cases hj : s.Rejoins h
  · have hm := hj.acceptedOutOfStep hr hp ho.1
    have hrun : (s.accept h none false).ownClear tick epoch
        = (s.accept h none false).clearOutOfStep tick epoch := by
      unfold State.ownClear; rw [hm.stepState]
    have hc := (s.accept h none false).clearOutOfStep_cleared tick epoch
    rw [← hrun] at hc
    have hrx : ((s.accept h none false).ownClear tick epoch).rx = .waitIdle := by rw [hrun]; simpa using hm.rx
    generalize (s.accept h none false).ownClear tick epoch = t at *
    generalize s.accept h none false = m at *
    have hcounter : ∀ k, k ≠ .framesApplied → k ≠ .disagreements → k ≠ .claimsWithdrawn →
        t.counter k = s.counter k := fun k hf hd hw => by
      rw [State.counter, hc.counters, Counters.read_rise_other _ _ _ _ (Ne.symm hf)]; exact hm.counter k hd hw
    have hleft : t.hasFlag .leftStep = (s.hasFlag .leftStep || decide (s.LeavesStep h)) := by
      rw [hc.flag, hm.leftStep]; simp
    simp only [hj, if_true]
    refine ⟨hrx, ?_, by rw [hc.table, hfingerprint]; rfl, hc.stepState, hc.tick, hc.lastClaimed, hc.requester,
      by rw [hc.listeningEnd, hm.listeningEnd]; rfl, hrecorded, hc.orders, ?_, fun hn => by simp [hleft, hn],
      fun hl => by simp [hleft, hl], hc.streak, hc.responder, hstage, harmed,
      hcounter _ (by decide) (by decide) (by decide), hcounter _ (by decide) (by decide) (by decide),
      hlaw.none_queued (by rw [hc.table]; rfl) hc.responder hc.requester⟩
    · rw [State.counter, hc.counters, Counters.read_rise_self, ← hm.counter .framesApplied (by decide) (by decide)]
      rfl
    · rw [hc.flag, hm.flag _ (by decide) (by decide), horders]; simp
  · have hk : s.KeepsStep h := hcase.resolve_right hj
    have hq := hk.acceptedQuietly
    obtain ⟨-, -, -, hheld, hphase, hidle, -⟩ := hp
    have hstep : s.stepState ≠ .listening ∧ s.stepState ≠ .outOfStep := by
      rcases hk with hk | ⟨hk, -⟩ <;> simp [hk]
    have hrequester : s.requester = Requester.idle := hidle (not_not.mp fun hne => hstep.2 (hphase.mp hne))
    have hlistening : s.listeningEnd = none := by
      rw [← Option.not_isSome_iff_eq_none]; exact fun hsome => hstep.1 (hheld.mp hsome)
    have hnot : ¬s.LeavesStep h := fun hl => hj (.inr (.inl hl))
    have hrun := State.ownClear_of_applies tick epoch (s.accept h none false) hq.applies
    obtain ⟨forders, fstreak, fcounters, fflag⟩ := (s.accept h none false).applyClear_fields
    have fresponder := (s.accept h none false).applyClear_responder
    have ftable := (s.accept h none false).applyClear_table
    rw [hrun] at hlaw hrecorded hstage harmed ⊢
    generalize s.accept h none false = m at *
    have hcounter : ∀ k, k ≠ .framesApplied → k ≠ .disagreements →
        m.applyClear.counter k = s.counter k := fun k hf hd => by
      rw [State.counter, fcounters, Counters.read_rise_other _ _ _ _ (Ne.symm hf)]; exact hq.counter k hd
    simp only [hj, if_false]
    rw [Table.cleared_eq, hfingerprint, hq.table] at ftable
    refine ⟨by simp [hq.rx], ?_, ftable, by simp [hq.stepState], by simp [hq.tick], by simp [hq.lastClaimed],
      by simp [hq.requester, hrequester], by simp [hq.listeningEnd, hlistening], hrecorded, forders, ?_,
      fun _ => ?_, fun hl => absurd hl hnot, fstreak, fresponder, hstage, harmed,
      hcounter _ (by decide) (by decide), hcounter _ (by decide) (by decide),
      hlaw.none_queued (by rw [ftable]) fresponder (by simp [hq.requester, hrequester])⟩
    · rw [State.counter, fcounters, Counters.read_rise_self, ← hq.counter .framesApplied (by decide)]
      rfl
    · rw [fflag, hq.flag _ (by decide) (by decide), horders]; simp
    · rw [fflag, hq.flag _ (by decide) (by decide)]; simp

end Sys2Proof.Machine

/-! The EPOCH accepted by a station that applies it (O46). -/

namespace Sys2Proof.Machine

/-- The streak after the vote: as it was, emptied by an agreement, or with the sender in it below V (R88 to
R91, R93, R96). -/
theorem State.vote_streak (h : Header) (m : State) : (m.vote h).streak =
    if m.votes h = true then
      if m.agrees h = true then 0
      else if addrCount (addAddr m.streak h.sender) < m.params.v.toNat then addAddr m.streak h.sender else 0
    else m.streak := by
  obtain ⟨-, -, -, -, -, hbelow, hthreshold⟩ := State.voteDisagree_facts h.sender m
  unfold State.vote
  split
  next =>
    split
    next => rfl
    next =>
      split
      next hlt => exact (hbelow hlt).1
      next hge => exact (hthreshold (not_lt.mp hge)).1
  next => rfl

/-- A withdrawal leaves the entries it does not name. -/
theorem Transmitter.Still.mem_withdraw_of_mem {t : Transmitter} (h : t.Still) {p : Body → Bool} {x : Entry}
    (hx : x ∈ t.outbox) (hp : p x.body = false) : x ∈ (t.withdraw p).outbox := by
  rw [h.withdraw_eq]
  exact mem_admitOffers_of_mem _ _ _ (List.mem_filter.mpr ⟨hx, by simp [hp]⟩)

/-- The station `m` has taken an EPOCH from the line, its arrival effects among the rest, and has kept its
step state: what the application finds (R44, R75, R78, R102, R115). -/
structure State.AcceptedEpoch (h : Header) (s m : State) : Prop where
  applies : m.applies = true
  stepState : m.stepState = s.stepState
  rx : m.rx = .waitIdle
  tick : m.tick = 0
  lastClaimed : m.lastClaimed = none
  lastSent : m.lastSent = 0
  table : m.table = s.table
  tx : m.tx = ({ s.tx with recessive := 0 } : Transmitter).withdraw (Body.isKind .claim)
  responder : m.responder = { s.responder with phase := s.responder.phase.rebase s.tick 0 }
  counter : ∀ k, k ≠ .disagreements →
    m.counter k = Counters.read k (Counters.rise .claimsWithdrawn (s.tx.countKind .claim) s.counters)
  streak : m.streak = if h.inStep = false ∨ (s.roster.entry h.sender).mismatched = true then s.streak
    else if h.count = s.table.count ∧ h.digest = s.table.digest then 0
    else if addrCount (addAddr s.streak h.sender) < s.params.v.toNat then addAddr s.streak h.sender
    else 0

theorem State.KeepsStep.accept_streak {h : Header} {s : State} (hk : s.KeepsStep h) (epoch : Bool) :
    (s.accept h none epoch).streak =
      if h.inStep = false ∨ (s.roster.entry h.sender).mismatched = true then s.streak
      else if h.count = s.table.count ∧ h.digest = s.table.digest then 0
      else if addrCount (addAddr s.streak h.sender) < s.params.v.toNat then addAddr s.streak h.sender
      else 0 := by
  have happlies : (s.arrive h none epoch).applies = true := by simpa [State.applies] using hk.applies
  have hvotes : (s.arrive h none epoch).votes h = true
      ↔ ¬(h.inStep = false ∨ (s.roster.entry h.sender).mismatched = true) := by
    simp [State.votes, State.arrive_mark, happlies]
  have hagrees : (s.arrive h none epoch).agrees h = true
      ↔ h.count = s.table.count ∧ h.digest = s.table.digest := by simp [State.agrees]
  rw [State.accept_eq_vote h none epoch hk.applies, State.vote_streak]
  simp only [hvotes, hagrees, State.arrive_frame, ite_not]

theorem State.KeepsStep.acceptedEpoch {h : Header} {s : State} (hk : s.KeepsStep h) (hs : s.tx.Still) :
    s.AcceptedEpoch h (s.accept h none true) := by
  have hconf : s.stepState ≠ .unconfigured := fun hun => by
    have := hk.applies
    simp [State.applies, hun] at this
  obtain ⟨arx, atick, atx, aclaimed, asent, -, -, aresponder, acounters⟩ :=
    State.arrive_epoch_configured h none s hconf
  obtain ⟨qrx, qtick, qtx, qtable, qstep, qclaimed, qsent, -, -, qresponder, qcounter⟩ :=
    (hk.accept_quiet_vote true).frame
  have hstep : (s.accept h none true).stepState = s.stepState := by rw [qstep]; simp
  refine ⟨by rw [State.applies, hstep]; exact hk.applies, hstep, qrx.trans arx, qtick.trans atick,
    qclaimed.trans aclaimed, qsent.trans asent, by rw [qtable]; simp, qtx.trans atx,
    qresponder.trans aresponder, fun k hd => ?_, hk.accept_streak true⟩
  rw [qcounter k hd, State.counter, acounters, hs.withdrawnClaims _ fun _ hb => hb]

/-- Settles O46: the acceptance, and the EPOCH applied. -/
theorem acceptedEpochIsApplied : Obligations.AcceptedEpochIsApplied := by
  intro h s hr hk hl
  have hstill := hl.still (State.receives_onLine hr)
  have hm := hk.acceptedEpoch hstill
  have hrecorded := (State.accept_recorded h none true s).ownSequenced h .epoch
  rw [State.ownSequenced_of_applies h _ _ hm.applies] at hrecorded
  have hexec : exec (.epochAccepted h) s = .next ((s.accept h none true).applyFrame h.sender .epoch) := by
    simp only [exec, execEpochAccepted, hr, if_true, State.ownSequenced_of_applies h _ _ hm.applies]
  have horders : (s.accept h none true).orders = s.orders := by simp
  have hstage : (s.accept h none true).stage = s.stage := by simp
  have harmed : (s.accept h none true).armed = s.armed := by simp
  refine ⟨_, hexec, ?_⟩
  generalize s.accept h none true = m at *
  obtain ⟨ftx, fcounters, forders, -⟩ := State.applyFrame_epoch h.sender m hm.applies
  have ftable := State.applyFrame_table h.sender .epoch m
  dsimp only at ftable
  rw [hm.table] at ftable
  rw [hm.tx] at ftx
  have hbusy : ({ s.tx with recessive := 0 } : Transmitter).Still := hstill
  have hresponder : (m.applyFrame h.sender .epoch).responder
      = { s.responder with phase := s.responder.phase.rebase s.tick 0 } := by simpa using hm.responder
  refine ⟨by simp [hm.rx], by simp [hm.stepState], by simp [hm.tick], by simp [hm.lastClaimed],
    by simp [hm.lastSent], ?_, ?_, fun x hx => ?_, by rw [ftable]; rfl, by rw [ftable]; rfl,
    by rw [ftable]; rfl, by rw [ftable]; rfl, by rw [ftable]; rfl, ?_, by rw [ftable]; rfl,
    by rw [ftable]; rfl, by rw [ftable]; rfl, forders.trans horders, hresponder, fun tg e hphase => ?_,
    fun tg b n i q hphase => ?_, fun x hx hstate => ?_, by simpa using hm.streak, by simpa using hstage,
    by simpa using harmed, hrecorded⟩
  · rw [(State.applyFrame_counters _ _ _).1, hm.counter _ (by decide),
      Counters.read_rise_other _ _ _ _ (by decide)]
    rfl
  · rw [State.counter, fcounters, Counters.read_rise_other _ _ _ _ (by decide)]
    exact (hm.counter .claimsWithdrawn (by decide)).trans (Counters.read_rise_self _ _ _)
  · rw [ftx] at hx
    obtain ⟨-, hclaim, hclose, -⟩ := hbusy.mem_withdraw_withdraw _ _ hx
    exact ⟨hclaim, hclose⟩
  · rw [ftable, Table.epochEnds_history]; rfl
  · rw [hresponder, hphase]
    exact congrArg (ResponderPhase.delay tg) (rebase_zero s.tick e)
  · rw [hresponder, hphase, ResponderPhase.rebase, ← hphase]
  · rw [ftx]
    exact (hbusy.withdraw _).mem_withdraw_of_mem
      (hbusy.mem_withdraw_of_mem hx (Body.isKind_other hstate (by decide)))
      (Body.isKind_other hstate (by decide))

end Sys2Proof.Machine

/-! Acceptances at a station that listens or stands OUT_OF_STEP: the frame that ends the listening period, and
the frames that are held (O48, O49). -/

namespace Sys2Proof.Machine

/-! ### The arrival, EPOCH or not -/

/-- An arrival counts withdrawn claims and nothing else (R44, R85). -/
theorem State.arrive_counter_other (h : Header) (carried : Option Half) (epoch : Bool) (k : Counter) (s : State)
    (hk : k ≠ .claimsWithdrawn) : (s.arrive h carried epoch).counter k = s.counter k := by
  obtain ⟨-, -, -, -, -, -, -, -, pcounters⟩ := State.arrive_plain h carried s
  have hplain : (s.arrive h carried false).counter k = s.counter k := by rw [State.counter, pcounters]; rfl
  cases epoch with
  | false => exact hplain
  | true =>
    by_cases hc : s.stepState = .unconfigured
    · rw [State.arrive_epoch_unconfigured h carried s hc]; exact hplain
    · obtain ⟨-, -, -, -, -, -, -, -, ecounters⟩ := State.arrive_epoch_configured h carried s hc
      rw [State.counter, ecounters]
      exact Counters.read_rise_other _ _ _ _ (Ne.symm hk)

/-- The counter, the last claimed trigger and the requester's deadlines at an arrival (R44, R78, R115). -/
theorem State.arrive_timed (h : Header) (carried : Option Half) (epoch : Bool) (s : State)
    (hc : s.stepState ≠ .unconfigured) :
    (s.arrive h carried epoch).tick = (if epoch = true then 0 else s.tick)
      ∧ (s.arrive h carried epoch).lastClaimed = (if epoch = true then none else s.lastClaimed)
      ∧ (s.arrive h carried epoch).requester = { s.requester with
          phase := if epoch = true then s.requester.phase.rebase s.tick 0 else s.requester.phase } := by
  cases epoch with
  | false =>
    obtain ⟨-, ptick, -, pclaimed, -, -, preq, -⟩ := State.arrive_plain h carried s
    exact ⟨ptick, pclaimed, preq⟩
  | true =>
    obtain ⟨-, etick, -, eclaimed, -, -, ereq, -⟩ := State.arrive_epoch_configured h carried s hc
    exact ⟨etick, eclaimed, ereq⟩

/-! ### The record, kind by kind -/

theorem State.markAfter_some (fp : Half) (old : Bool) (s : State) : s.markAfter (some fp) old =
    if s.stepState = .unconfigured then old else decide (fp ≠ s.fingerprint) := by
  by_cases hc : s.stepState = .unconfigured <;> simp [State.markAfter, State.configured, hc, bne, beq_eq_decide]

/-- The record of a frame, its fingerprint tested where it carries one (R98, R99). -/
theorem Instr.Brings.recorded {h : Header} {c : Instr} {carried : Option Half} {epoch : Bool} {s t : State}
    (hb : Instr.Brings h c carried epoch)
    (hr : s.Recorded h (s.markAfter carried (s.roster.entry h.sender).mismatched) t) :
    (∀ fp k, c = .stateReqAccepted h fp k → s.RecordedTested h fp t)
      ∧ (∀ fp, c = .presenceAccepted h fp → s.RecordedTested h fp t)
      ∧ ((∀ fp k, c ≠ .stateReqAccepted h fp k) → (∀ fp, c ≠ .presenceAccepted h fp) →
          s.RecordedPlain h t) := by
  cases hb with
  | stateReq fp k =>
    rw [State.markAfter_some] at hr
    exact ⟨fun _ _ he => (by cases he; exact hr), fun _ he => (by cases he), fun hne => absurd rfl (hne fp k)⟩
  | presence fp =>
    rw [State.markAfter_some] at hr
    exact ⟨fun _ _ he => (by cases he), fun _ he => (by cases he; exact hr), fun _ hne => absurd rfl (hne fp)⟩
  | _ => exact ⟨fun _ _ he => (by cases he), fun _ he => (by cases he), fun _ _ => hr⟩

/-! ### The frame that ends the listening period (O48) -/

/-- No owner acts on a frame, no CLEAR, that leaves the station OUT_OF_STEP with its request not yet sent. -/
theorem Instr.Brings.exec_unsent {h : Header} {c : Instr} {carried : Option Half} {epoch : Bool} {s : State}
    (hb : Instr.Brings h c carried epoch) (hr : s.receives = true) (hn : ∀ tk ep, c ≠ .clearAccepted h tk ep)
    (ho : (s.accept h carried epoch).stepState = .outOfStep)
    (hp : (s.accept h carried epoch).requester.phase = .requesting none) :
    exec c s = .next (s.accept h carried epoch) := by
  obtain ⟨hseq, hstate, hreq⟩ := State.owners_outOfStep_unsent h _ ho hp
  cases hb with
  | claim stamp ep => simp only [exec, execClaimAccepted, hr, if_true, hseq]
  | close number => simp only [exec, execCloseAccepted, hr, if_true, hseq]
  | clear tick ep => exact absurd rfl (hn tick ep)
  | epoch => simp only [exec, execEpochAccepted, hr, if_true, hseq]
  | state body hw => simp only [exec, execStateAccepted, hr, hw, if_true, hstate]
  | stateReq fingerprint attempt => simp only [exec, execStateReqAccepted, hr, if_true, hreq]
  | presence fingerprint => simp only [exec, execPresenceAccepted, hr, if_true]

/-- An in-step frame at a listening station is recorded, and the station joins (R66, R141). -/
theorem State.accept_joins (h : Header) (carried : Option Half) (epoch : Bool) {s : State}
    (hl : s.stepState = .listening) (hi : h.inStep = true) :
    s.accept h carried epoch = (s.arrive h carried epoch).join := by
  unfold State.accept State.monitor
  rw [if_pos (by simpa using hl), if_pos hi]

/-- The first STATE_REQ of a station whose outbox was empty stands alone (R94, R107). -/
theorem State.enterOutOfStep_outbox_of_empty {s : State} (ho : s.tx.outbox = []) (hd : s.tx.deferred = []) :
    s.enterOutOfStep.tx.outbox = [Entry.fresh (.stateReq s.fingerprint 1)] := by
  have hwithdrawn : ∀ (p : Body → Bool) (t : Transmitter), t.outbox = [] → t.deferred = [] →
      (t.withdraw p).outbox = [] ∧ (t.withdraw p).deferred = [] := fun p t ht hdt =>
    ⟨(t.withdraw_empty p ht hdt).1, List.eq_nil_iff_forall_not_mem.mpr fun b hb => by
      have := (Transmitter.withdraw_deferred_subset p t b hb).1
      rw [hdt] at this; cases this⟩
  obtain ⟨hfirst, hfirst'⟩ := hwithdrawn (fun b => b.kind.ordered) s.tx ho hd
  obtain ⟨hsecond, hsecond'⟩ := hwithdrawn (Body.isKind .state) _ hfirst hfirst'
  rw [State.enterOutOfStep_tx]
  simp [Transmitter.offer, Transmitter.queued, Transmitter.holds, hsecond, hsecond', generalCount,
    Config.maxGeneral, Transmitter.admitEntry, insertEntry]

/-- Settles O48: the record, and the entry into OUT_OF_STEP. -/
theorem inStepFrameEndsListening : Obligations.InStepFrameEndsListening := by
  intro c h s hr hp ho hl hi hc
  obtain ⟨carried, epoch, hb, hclear⟩ : ∃ carried epoch, Instr.Brings h c carried epoch
      ∧ ∀ tk ep, c ≠ .clearAccepted h tk ep := by
    rcases hc with ⟨st, ep, rfl⟩ | ⟨n, rfl⟩ | rfl | ⟨body, rfl, hw⟩ | ⟨fp, k, rfl⟩ | ⟨fp, rfl⟩
    · exact ⟨_, _, .claim st ep, by simp⟩
    · exact ⟨_, _, .close n, by simp⟩
    · exact ⟨_, _, .epoch, by simp⟩
    · exact ⟨_, _, .state body hw, by simp⟩
    · exact ⟨_, _, .stateReq fp k, by simp⟩
    · exact ⟨_, _, .presence fp, by simp⟩
  obtain ⟨n, hn⟩ : ∃ n : State, n = { s.arrive h carried epoch with
    listeningEnd := none, lastSent := (s.arrive h carried epoch).tick } := ⟨_, rfl⟩
  have hacc : s.accept h carried epoch = n.enterOutOfStep := by
    rw [State.accept_joins h carried epoch hl hi, hn]; rfl
  obtain ⟨atick, aclaimed, -⟩ := State.arrive_timed h carried epoch s (by simp [hl])
  have hlaw := State.arrive_outboxLaw h carried epoch ho
  have hstill := hlaw.still ((State.arrive_onLine h carried epoch s).trans (State.receives_onLine hr))
  obtain ⟨hempty, hnone⟩ := hlaw.empty (by simp [hl]) (by simp [hl])
  have hframes := State.arrive_counter_other h carried epoch .framesApplied s (by decide)
  have hleft := State.arrive_hasFlag_other h carried epoch .leftStep s (by decide)
  obtain ⟨htested, hpresence, hplain⟩ := hb.recorded (State.accept_recorded h carried epoch s)
  obtain ⟨-, hflags, htick, -, -, hout, -⟩ := n.enterOutOfStep_facts
  obtain ⟨hrequester, -, htable⟩ := n.enterOutOfStep_contexts
  refine ⟨_, hb.exec_unsent hr hclear (by rw [hacc]; exact hout) (by rw [hacc, hrequester]), ?_⟩
  simp only [← hb.epoch_iff]
  refine ⟨by rw [hacc]; exact hout, by rw [hacc]; simp [hn], by rw [hacc]; simp [hn],
    by rw [hacc, htick, hn]; exact atick, by rw [hacc]; simpa [hn] using aclaimed, by rw [hacc, hrequester],
    ?_, ?_, ?_, ?_, htested, hpresence, hplain⟩
  · rw [hacc, State.enterOutOfStep_outbox_of_empty (by rw [hn]; exact hempty) (by rw [hn]; exact hnone)]
    simp [hn]
  · rw [hacc, State.hasFlag, hflags, hn]; exact hleft
  · rw [hacc, htable, Table.shared_withoutDues, hn]; simp
  · rw [hacc, n.enterOutOfStep_counter _ (by rw [hn]; exact hstill), if_neg (by decide), hn]
    exact hframes

/-! ### Frames that are held (O49) -/

/-- Out of step an acceptance is its arrival alone, an EPOCH's too: no vote is called for (R88). -/
theorem State.accept_arrives (h : Header) (carried : Option Half) (epoch : Bool) {s : State}
    (ho : s.stepState = .outOfStep) : s.accept h carried epoch = s.arrive h carried epoch := by
  unfold State.accept State.monitor State.vote State.votes State.applies
  simp [ho]

/-- A set of the counter moves the requester's deadlines, and collection with them (R110, R115). -/
theorem RequesterPhase.collecting_rebase (old new : Tick) (r : Requester) :
    Requester.collecting { r with phase := r.phase.rebase old new } = r.collecting := by
  cases r with
  | mk phase attempt unanswered hold =>
    cases phase with
    | requesting d => cases d <;> rfl
    | _ => rfl

/-- A failure raises RESYNCS_FAILED and no other counter (R122). -/
theorem State.counter_fail (k : FailKind) (c : Counter) (s : State) :
    (s.fail k).counter c = (s.rise .resyncsFailed 1).counter c := by
  have hcounters : (s.fail k).counters = (s.rise .resyncsFailed 1).counters := by
    unfold State.fail
    dsimp only
    split
    · simp
    · split <;> simp
  rw [State.counter, hcounters]; rfl

/-- A held frame moves the requester alone, but for the failure of a seventeenth (R110, R111). -/
theorem State.holdFrame_cases (a : Addr) (body : Sequenced) (n : Half) (m : State) :
    (m.requester.collecting = false → m.holdFrame a body n = m)
      ∧ (m.requester.collecting = true → m.requester.hold.length < 16 →
          m.holdFrame a body n = { m with requester := { m.requester with
            hold := m.requester.hold ++ [{ sender := a, body := body, count := n }] } })
      ∧ (m.requester.collecting = true → 16 ≤ m.requester.hold.length →
          m.holdFrame a body n = m.fail .overflow) := by
  unfold State.holdFrame Config.maxHold
  refine ⟨fun hc => by simp [hc], fun hc hlt => by simp [hc, hlt], fun hc hge => ?_⟩
  rw [if_pos hc, if_neg (not_lt.mpr hge)]

/-- Out of step a CLAIM, CLOSE or EPOCH goes to the hold queue (R110). -/
theorem State.ownSequenced_outOfStep (h : Header) (body : Sequenced) {m : State}
    (ho : m.stepState = .outOfStep) : m.ownSequenced h body = m.holdFrame h.sender body h.count := by
  unfold State.ownSequenced
  rw [ho]

/-- Settles O49: the arrival, then the hold queue. -/
theorem outOfStepFramesAreHeld : Obligations.OutOfStepFramesAreHeld := by
  intro c h body s hr ho hc
  obtain ⟨epoch, hepoch, hexec⟩ : ∃ epoch, (epoch = true ↔ c = .epochAccepted h)
      ∧ exec c s = .next ((s.arrive h none epoch).ownSequenced h body) := by
    rcases hc with ⟨st, ep, rfl, rfl⟩ | ⟨n, rfl, rfl⟩ | ⟨rfl, rfl⟩
    · exact ⟨false, by simp,
        by simp only [exec, execClaimAccepted, hr, if_true, State.accept_arrives h none false ho]⟩
    · exact ⟨false, by simp,
        by simp only [exec, execCloseAccepted, hr, if_true, State.accept_arrives h none false ho]⟩
    · exact ⟨true, by simp,
        by simp only [exec, execEpochAccepted, hr, if_true, State.accept_arrives h none true ho]⟩
  obtain ⟨atick, aclaimed, areq⟩ := State.arrive_timed h none epoch s (by simp [ho])
  have hrecorded := (State.accept_recorded h none epoch s).ownSequenced h body
  rw [State.accept_arrives h none epoch ho] at hrecorded
  have hcounter := fun k hk => State.arrive_counter_other h none epoch k s hk
  have hstep : (s.arrive h none epoch).stepState = .outOfStep := by simpa using ho
  have htable : (s.arrive h none epoch).table = s.table := by simp
  have hcollecting : (s.arrive h none epoch).requester.collecting = s.requester.collecting := by
    rw [areq]
    cases epoch with
    | false => rfl
    | true => exact RequesterPhase.collecting_rebase _ _ _
  rw [State.ownSequenced_outOfStep h body hstep] at hexec hrecorded
  refine ⟨_, hexec, ?_⟩
  simp only [← hepoch]
  generalize s.arrive h none epoch = m at *
  obtain ⟨hpasses, hholds, hoverflows⟩ := State.holdFrame_cases h.sender body h.count m
  have hhold : m.requester.hold = s.requester.hold := by rw [areq]
  have hphase : m.requester.phase
      = if epoch = true then s.requester.phase.rebase s.tick 0 else s.requester.phase := by rw [areq]
  rw [hcollecting, hhold] at hholds hoverflows
  rw [hcollecting] at hpasses
  refine ⟨?_, by simpa using atick, hrecorded, by simpa using aclaimed, fun hkept => ?_, fun hnot => ?_,
    fun hcol hlt => ?_, fun hcol hge => ?_⟩
  · unfold State.holdFrame
    (repeat' split)
    · exact hcounter _ (by decide)
    · rw [State.counter_fail, State.counter_rise_other _ _ _ _ (by decide)]; exact hcounter _ (by decide)
    · exact hcounter _ (by decide)
  · by_cases hcol : s.requester.collecting = true
    · rw [hholds hcol (hkept.resolve_left (by simp [hcol]))]; exact hphase
    · rw [hpasses (by simpa using hcol)]; exact hphase
  · rw [hpasses hnot]
    exact ⟨hhold, hstep, htable, hcounter _ (by decide)⟩
  · rw [hholds hcol hlt]
    exact ⟨rfl, by rw [areq], hstep, htable, hcounter .resyncsFailed (by decide)⟩
  · obtain ⟨frequester, ftable, fstep, fcounter, -⟩ := State.fail_answered (k := .overflow) (by decide) m
    rw [hoverflows hcol hge]
    exact ⟨by rw [frequester, areq], fstep.trans hstep, ftable.trans htable,
      by rw [fcounter, hcounter _ (by decide)]⟩

end Sys2Proof.Machine

/-! The vote on a frame of any kind, and what the frame's owner leaves of it (O51). -/

namespace Sys2Proof.Machine

/-! ### The owner of a frame (R66) -/

/-- Step 4 of an acceptance: the frame goes to its owner. -/
def Instr.owner (h : Header) (c : Instr) (m : State) : State :=
  match c with
  | .claimAccepted _ stamp epoch => m.ownSequenced h (.claim stamp epoch)
  | .closeAccepted _ number      => m.ownSequenced h (.close number)
  | .clearAccepted _ tick epoch  => m.ownClear tick epoch
  | .epochAccepted _             => m.ownSequenced h .epoch
  | .stateAccepted _ body        => m.ownState h body
  | .stateReqAccepted _ _ _      => m.ownStateReq h
  | _                            => m

theorem Instr.Brings.exec_owner {h : Header} {c : Instr} {carried : Option Half} {epoch : Bool} {s : State}
    (hb : Instr.Brings h c carried epoch) (hr : s.receives = true) :
    exec c s = .next (Instr.owner h c (s.accept h carried epoch)) := by
  cases hb with
  | claim stamp ep => simp only [exec, execClaimAccepted, hr, if_true]; rfl
  | close number => simp only [exec, execCloseAccepted, hr, if_true]; rfl
  | clear tick ep => simp only [exec, execClearAccepted, hr, if_true]; rfl
  | epoch => simp only [exec, execEpochAccepted, hr, if_true]; rfl
  | state body hw => simp only [exec, execStateAccepted, hr, hw, if_true]; rfl
  | stateReq fingerprint attempt => simp only [exec, execStateReqAccepted, hr, if_true]; rfl
  | presence fingerprint => simp only [exec, execPresenceAccepted, hr, if_true]; rfl

theorem Roster.SameMarks.refl (r : Roster) : r.SameMarks r := fun _ => ⟨rfl, rfl, rfl, rfl, rfl⟩

theorem Roster.SameMarks.presence {r q : Roster} (h : r.SameMarks q) (a : Addr) :
    (r.entry a).presence = (q.entry a).presence := (h a).1

theorem Roster.SameMarks.disagreements {r q : Roster} (h : r.SameMarks q) (a : Addr) :
    (r.entry a).disagreements = (q.entry a).disagreements := (h a).2.2.2.2

/-- The owner leaves the marks of the roster and the count of disagreements. -/
structure State.KeepsVote (m t : State) : Prop where
  marks : t.roster.SameMarks m.roster
  disagreements : t.counter .disagreements = m.counter .disagreements

/-- The owner of a frame that is applied leaves the step state and DIVERGED too, and empties the streak only
at a CLEAR (R40). -/
structure State.KeepsQuietVote (clear : Bool) (m t : State) : Prop extends State.KeepsVote m t where
  stepState : t.stepState = m.stepState
  diverged : t.hasFlag .diverged = m.hasFlag .diverged
  streak : t.streak = if clear = true then 0 else m.streak

theorem State.KeepsQuietVote.of_same {m t : State} (hroster : t.roster = m.roster)
    (hcounter : t.counter .disagreements = m.counter .disagreements) (hstep : t.stepState = m.stepState)
    (hflags : t.hasFlag .diverged = m.hasFlag .diverged) (hstreak : t.streak = m.streak) :
    m.KeepsQuietVote false t :=
  ⟨⟨by rw [hroster]; exact Roster.SameMarks.refl _, hcounter⟩, hstep, hflags, hstreak⟩

/-- A STATE's owner at a station that applies ordered frames counts at most withdrawals (R127). -/
theorem State.counter_responderState (b : StateBody) (k : Counter) (m : State) (hk : k ≠ .claimsWithdrawn) :
    (m.responderState b).counter k = m.counter k := by
  unfold State.responderState State.headerHeard
  dsimp only
  (repeat' split) <;>
    simp [State.counter, State.withdraw, Counters.read_rise_other _ _ _ _ (Ne.symm hk)]

/-- The command is a CLEAR's acceptance. -/
def Instr.isClear : Instr → Bool
  | .clearAccepted _ _ _ => true
  | _ => false

theorem State.KeepsQuietVote.refl (m : State) : m.KeepsQuietVote false m := .of_same rfl rfl rfl rfl rfl

/-- A CLAIM, CLOSE or EPOCH applied keeps the vote. -/
theorem State.applyFrame_keepsQuietVote (a : Addr) (body : Sequenced) (m : State) :
    m.KeepsQuietVote false (m.applyFrame a body) :=
  .of_same (by simp) (State.counter_applyFrame _ _ _ _ (by decide) (by decide) (by decide) (by decide)) (by simp)
    (State.applyFrame_hasFlag _ _ _ _ (by decide) (by decide)) (by simp)

/-- A CLEAR applied keeps the vote, and empties the streak (R40). -/
theorem State.applyClear_keepsQuietVote (m : State) : m.KeepsQuietVote true m.applyClear := by
  obtain ⟨-, hstreak, hcounters, hflag⟩ := m.applyClear_fields
  refine ⟨⟨by rw [m.applyClear_record.1]; exact Roster.SameMarks.refl _, ?_⟩, by simp, ?_, hstreak⟩
  · rw [State.counter, hcounters]; exact Counters.read_rise_other _ _ _ _ (by decide)
  · rw [hflag]; simp

/-- A STATE at a station that applies ordered frames keeps the vote (R127). -/
theorem State.ownState_keepsQuietVote (h : Header) (body : List Byte) (m : State) (ha : m.applies = true) :
    m.KeepsQuietVote false (m.ownState h body) := by
  unfold State.ownState
  split
  next => exact .refl m
  next b _ =>
    rcases (m.applies_iff).mp ha with hi | hi <;> rw [hi]
    · exact .of_same (by simp) (m.counter_responderState b _ (by decide)) (by simp) (by simp [State.hasFlag])
        (by simp)
    · exact .refl m

/-- At a station that applies ordered frames no owner disturbs the vote. -/
theorem Instr.Brings.owner_applies {h : Header} {c : Instr} {carried : Option Half} {epoch : Bool}
    (hb : Instr.Brings h c carried epoch) {m : State} (ha : m.applies = true) :
    m.KeepsQuietVote (Instr.isClear c) (Instr.owner h c m) := by
  have hseq : ∀ body, m.KeepsQuietVote false (m.ownSequenced h body) := fun body => by
    rw [State.ownSequenced_of_applies h body m ha]
    exact m.applyFrame_keepsQuietVote h.sender body
  cases hb with
  | claim stamp ep => exact hseq _
  | close number => exact hseq _
  | epoch => exact hseq _
  | clear tick ep =>
    have hrun : Instr.owner h (.clearAccepted h tick ep) m = m.applyClear :=
      State.ownClear_of_applies tick ep m ha
    rw [hrun]
    exact m.applyClear_keepsQuietVote
  | state body _ => exact m.ownState_keepsQuietVote h body ha
  | stateReq fp k =>
    exact .of_same (t := m.ownStateReq h) (by simp) (by simp [State.counter]) (by simp) (by simp [State.hasFlag])
      (by simp)
  | presence fp => exact .refl m

/-- Nor does one once the vote has taken the station out of step: a CLEAR returns it to step (R41). -/
theorem Instr.Brings.owner_left {h : Header} {c : Instr} {carried : Option Half} {epoch : Bool}
    (hb : Instr.Brings h c carried epoch) {m : State} (ho : m.stepState = .outOfStep)
    (hp : m.requester.phase = .requesting none) : m.KeepsVote (Instr.owner h c m) := by
  obtain ⟨hseq, hstate, hreq⟩ := State.owners_outOfStep_unsent h m ho hp
  have hsame : m.KeepsVote m := (State.KeepsQuietVote.refl m).toKeepsVote
  cases hb with
  | claim stamp ep => simpa only [Instr.owner, hseq] using hsame
  | close number => simpa only [Instr.owner, hseq] using hsame
  | epoch => simpa only [Instr.owner, hseq] using hsame
  | state body _ => simpa only [Instr.owner, hstate] using hsame
  | stateReq fp k => simpa only [Instr.owner, hreq] using hsame
  | presence fp => exact hsame
  | clear tick ep =>
    have hcleared := m.clearOutOfStep_cleared tick ep
    have hrun : Instr.owner h (.clearAccepted h tick ep) m = m.clearOutOfStep tick ep := by
      unfold Instr.owner State.ownClear; rw [ho]
    rw [hrun]
    refine ⟨fun a => ?_, ?_⟩
    · simp [State.clearOutOfStep, State.setTick]
    · rw [State.counter, hcleared.counters]; exact Counters.read_rise_other _ _ _ _ (by decide)

/-! ### The obligation -/

/-- A frame that shows the own fingerprint finds its sender unmarked at the vote, unless the sender is the own
address (R97, R99). -/
theorem State.arrive_mark_own (h : Header) (epoch : Bool) (s : State) (hc : s.stepState ≠ .unconfigured)
    (hm : h.sender ≠ s.addr ∨ (s.roster.entry h.sender).mismatched = false) :
    ((s.arrive h (some s.fingerprint) epoch).roster.entry h.sender).mismatched = false := by
  obtain ⟨-, hpeer, hothers, -⟩ := State.arrive_facts h (some s.fingerprint) epoch s _ rfl
  by_cases hown : h.sender = s.addr
  · obtain ⟨-, -, -, hmark, -⟩ := hothers h.sender (.inr hown)
    rw [hmark]
    exact hm.resolve_left (not_not.mpr hown)
  · obtain ⟨-, -, -, hmark, -⟩ := hpeer hown
    rw [hmark, State.markAfter_some, if_neg hc]
    simp

/-- A frame that is voted on, with the arrival that its vote finds. -/
theorem State.VotesOn.brings {h : Header} {c : Instr} {s : State} (hv : s.VotesOn h c) :
    ∃ carried epoch, Instr.Brings h c carried epoch
      ∧ ((s.arrive h carried epoch).roster.entry h.sender).mismatched = false := by
  obtain ⟨happlies, -, ⟨hplain, hmark⟩ | ⟨htested, hmark⟩⟩ := hv
  · have hunmarked := fun epoch => (State.arrive_mark h epoch s).trans hmark
    rcases hplain with ⟨st, ep, rfl⟩ | ⟨n, rfl⟩ | ⟨tk, ep, rfl⟩ | rfl | ⟨body, rfl, hw⟩
    · exact ⟨_, _, .claim st ep, hunmarked _⟩
    · exact ⟨_, _, .close n, hunmarked _⟩
    · exact ⟨_, _, .clear tk ep, hunmarked _⟩
    · exact ⟨_, _, .epoch, hunmarked _⟩
    · exact ⟨_, _, .state body hw, hunmarked _⟩
  · have hunmarked := State.arrive_mark_own h false s
      (fun hun => by simp [State.applies, hun] at happlies) hmark
    rcases htested with ⟨k, rfl⟩ | rfl
    · exact ⟨_, _, .stateReq _ k, hunmarked⟩
    · exact ⟨_, _, .presence _, hunmarked⟩

theorem Instr.isClear_of_ne {c : Instr} {h : Header} {carried : Option Half} {epoch : Bool}
    (hb : Instr.Brings h c carried epoch) (hn : ∀ tk ep, c ≠ .clearAccepted h tk ep) :
    Instr.isClear c = false := by
  cases hb with
  | clear tick ep => exact absurd rfl (hn tick ep)
  | _ => rfl

/-- An agreement, and what the owner leaves of it (R90). -/
theorem State.VotesOn.agrees {h : Header} {c : Instr} {s : State} (hr : s.receives = true) (hv : s.VotesOn h c)
    (hagree : h.count = s.table.count ∧ h.digest = s.table.digest)
    (hbelow : addrCount s.streak < s.params.v.toNat) :
    ∃ t, exec c s = .next t ∧ t.streak = 0 ∧ t.stepState = s.stepState
      ∧ t.counter .disagreements = s.counter .disagreements
      ∧ (∀ a, (t.roster.entry a).disagreements = (s.roster.entry a).disagreements)
      ∧ (h.sender ≠ s.addr → (t.roster.entry h.sender).presence = .present)
      ∧ (∀ a, a ≠ s.addr → a ≠ h.sender → (t.roster.entry a).presence =
          if hasAddr s.streak a = true then .suspect else (s.roster.entry a).presence)
      ∧ (c = .presenceAccepted h s.fingerprint → h.sender ≠ s.addr →
          t.counters = s.counters ∧ t.flags = s.flags ∧ t.table = s.table) := by
  obtain ⟨carried, epoch, hb, hmark⟩ := hv.brings
  obtain ⟨m, rfl, hvoted⟩ := State.accept_voted h carried epoch s hv.1 hv.2.1 fun m hm => hm ▸ hmark
  rw [if_pos hagree] at hvoted
  obtain ⟨-, hpeer, hothers, htable, hstreak, hstep, haddr, hparams, hcount, hflags⟩ :=
    State.arrive_facts h carried epoch s _ rfl
  have hkeeps := hb.owner_applies (m := (s.arrive h carried epoch).voteAgree h.sender)
    (by simpa [State.applies] using hv.1)
  have hexec := hb.exec_owner hr
  rw [hvoted] at hexec
  have hfacts := State.voteAgree_facts h.sender (s.arrive h carried epoch)
  refine ⟨_, hexec, ?_, hkeeps.stepState.trans (by simp), hkeeps.disagreements.trans hcount, fun a => ?_,
    fun hne => ?_, fun a hown hne => ?_, fun hpresence hne => ?_⟩
  · rw [hkeeps.streak]; exact ite_self _
  · obtain ⟨-, -, -, -, hsame, -⟩ := hfacts a
    rw [hkeeps.marks.disagreements a, hsame]
    by_cases ha : a ≠ h.sender ∨ a = s.addr
    · obtain ⟨-, -, -, -, hcounted⟩ := hothers a ha
      exact hcounted
    · push Not at ha
      obtain ⟨rfl, hne⟩ := ha
      obtain ⟨-, -, -, -, hcounted, -⟩ := hpeer hne
      exact hcounted
  · obtain ⟨-, -, -, -, -, -, hpresent⟩ := hfacts h.sender
    rw [hkeeps.marks.presence h.sender, hpresent (by rw [haddr]; exact hne)]
    obtain ⟨-, -, -, -, -, hheard⟩ := hpeer hne
    rw [hheard]
    split
    · decide
    · assumption
  · obtain ⟨-, -, -, -, -, hsuspect, -⟩ := hfacts a
    rw [hkeeps.marks.presence a, hsuspect (by rw [haddr]; exact hown) hne (by rw [hstreak, hparams]; exact hbelow),
      hstreak, (hothers a (.inl hne)).1]
  · subst hpresence
    cases hb
    obtain ⟨-, -, -, -, -, -, -, -, pcounters⟩ := State.arrive_plain h (some s.fingerprint) s
    exact ⟨pcounters, hflags hne, htable⟩

/-- A disagreement that reaches V, by the step state (R93, R96). -/
theorem State.voteDisagree_threshold (x : Addr) (m : State)
    (hv : m.params.v.toNat ≤ addrCount (addAddr m.streak x)) :
    (m.stepState = .inStep → m.voteDisagree x = (m.countDisagreement x).leaveStep)
      ∧ (m.stepState ≠ .inStep →
          m.voteDisagree x = { (m.countDisagreement x).setFlag .diverged with streak := 0 }) := by
  have hreached : (m.countDisagreement x).params.v.toNat ≤ addrCount (m.countDisagreement x).streak := hv
  have hstep : (m.countDisagreement x).stepState = m.stepState := rfl
  unfold State.voteDisagree
  dsimp only
  rw [if_pos hreached, hstep]
  exact ⟨fun hi => if_pos hi, fun hi => if_neg hi⟩

/-- Whatever a disagreement makes of the station, the owner of the frame leaves the vote. -/
theorem Instr.Brings.owner_disagreed {h : Header} {c : Instr} {carried : Option Half} {epoch : Bool}
    (hb : Instr.Brings h c carried epoch) (x : Addr) {m : State} (ha : m.applies = true) :
    (m.voteDisagree x).KeepsVote (Instr.owner h c (m.voteDisagree x)) := by
  obtain ⟨-, -, -, -, -, hbelow, hthreshold⟩ := State.voteDisagree_facts x m
  by_cases hv : m.params.v.toNat ≤ addrCount (addAddr m.streak x)
  · obtain ⟨-, houtStep, hmute⟩ := hthreshold hv
    rcases (m.applies_iff).mp ha with hi | hi
    · refine hb.owner_left (houtStep hi) ?_
      rw [(State.voteDisagree_threshold x m hv).1 hi, State.leaveStep, (State.enterOutOfStep_contexts _).1]
    · exact (hb.owner_applies (by simp [State.applies, (hmute hi).1])).toKeepsVote
  · exact (hb.owner_applies (by rw [State.applies, (hbelow (not_le.mp hv)).2.1]; exact ha)).toKeepsVote

/-- A disagreement at a station that applies ordered frames, and what the owner leaves of it (R91 to R93,
R96). -/
theorem State.VotesOn.disagrees {h : Header} {c : Instr} {s : State} (hr : s.receives = true)
    (hv : s.VotesOn h c) (hdiffer : h.count ≠ s.table.count ∨ h.digest ≠ s.table.digest) :
    ∃ t, exec c s = .next t
      ∧ t.counter .disagreements = satAdd16 (s.counter .disagreements) 1
      ∧ (h.sender ≠ s.addr → (t.roster.entry h.sender).disagreements
          = satAdd8 (s.roster.entry h.sender).disagreements 1)
      ∧ (∀ a, a ≠ h.sender ∨ a = s.addr →
          (t.roster.entry a).disagreements = (s.roster.entry a).disagreements
            ∧ (t.roster.entry a).presence = (s.roster.entry a).presence)
      ∧ (addrCount (addAddr s.streak h.sender) < s.params.v.toNat →
          t.stepState = s.stepState
            ∧ ((∀ tk ep, c ≠ .clearAccepted h tk ep) → t.streak = addAddr s.streak h.sender)
            ∧ (∀ tk ep, c = .clearAccepted h tk ep → t.streak = 0)
            ∧ (c = .presenceAccepted h s.fingerprint → h.sender ≠ s.addr → t.flags = s.flags))
      ∧ (s.params.v.toNat ≤ addrCount (addAddr s.streak h.sender) → s.stepState = .mute →
          t.streak = 0 ∧ t.stepState = .mute ∧ t.hasFlag .diverged = true
            ∧ (c = .presenceAccepted h s.fingerprint → t.table = s.table)) := by
  obtain ⟨carried, epoch, hb, hmark⟩ := hv.brings
  obtain ⟨m, rfl, hvoted⟩ := State.accept_voted h carried epoch s hv.1 hv.2.1 fun m hm => hm ▸ hmark
  rw [if_neg (by tauto)] at hvoted
  obtain ⟨-, hpeer, hothers, htable, hstreak, hstep, haddr, hparams, hcount, hflags⟩ :=
    State.arrive_facts h carried epoch s _ rfl
  obtain ⟨hroster, -, -, -, hcounted, hbelow, hthreshold⟩ :=
    State.voteDisagree_facts h.sender (s.arrive h carried epoch)
  rw [hstreak, hparams] at hbelow hthreshold
  rw [haddr] at hroster
  have hexec := hb.exec_owner hr
  rw [hvoted] at hexec
  have happlies : (s.arrive h carried epoch).applies = true := by simpa [State.applies] using hv.1
  have hkeeps := hb.owner_disagreed h.sender happlies
  have hquiet := hb.owner_applies (m := (s.arrive h carried epoch).voteDisagree h.sender)
  have hleft := State.voteDisagree_threshold h.sender (s.arrive h carried epoch)
  rw [hstreak, hparams] at hleft
  generalize (s.arrive h carried epoch).voteDisagree h.sender = v at *
  refine ⟨_, hexec, ?_, fun hne => ?_, fun a ha => ?_, fun hlt => ?_, fun hge hmute => ?_⟩
  · rw [hkeeps.disagreements, hcounted, hcount]
  · obtain ⟨-, -, -, -, hbefore, -⟩ := hpeer hne
    rw [hkeeps.marks.disagreements h.sender, (hroster h.sender).2 hne, hbefore]
  · obtain ⟨hpresence, -, -, -, hsame⟩ := hothers a ha
    rw [hkeeps.marks.disagreements a, hkeeps.marks.presence a, (hroster a).1 ha]
    exact ⟨hsame, hpresence⟩
  · obtain ⟨vstreak, vstep, vflags⟩ := hbelow hlt
    have hkept := hquiet (by rw [State.applies, vstep]; exact happlies)
    refine ⟨hkept.stepState.trans (vstep.trans hstep), fun hn => ?_, fun tk ep he => ?_, fun he hne => ?_⟩
    · rw [hkept.streak, Instr.isClear_of_ne hb hn]; exact vstreak
    · rw [hkept.streak, he]; rfl
    · subst he
      exact vflags.trans (hflags hne)
  · obtain ⟨vstreak, -, hmuted⟩ := hthreshold hge
    obtain ⟨vstep, vdiverged⟩ := hmuted (hstep.trans hmute)
    have hkept := hquiet (by simp [State.applies, vstep])
    refine ⟨?_, hkept.stepState.trans vstep, hkept.diverged.trans vdiverged, fun he => ?_⟩
    · rw [hkept.streak, vstreak]; exact ite_self _
    · subst he
      have hkeptTable : v.table = (s.arrive h carried epoch).table := by
        rw [(hleft hge).2 (by rw [hstep, hmute]; decide)]
        simp
      exact hkeptTable.trans htable

/-- Settles O51: the agreement and the disagreement, whatever the kind. -/
theorem votesMarkAndCount : Obligations.VotesMarkAndCount :=
  fun _ _ _ hr hv => ⟨fun hagree hbelow => hv.agrees hr hagree hbelow, fun hdiffer => hv.disagrees hr hdiffer⟩

end Sys2Proof.Machine

/-! Dues, expiries and the resync deadlines acted on (O57, O59). -/

namespace Sys2Proof.Machine

/-! ### Close dues and expiries (O57) -/

theorem reached_iff (now due : Tick) : reached now due = true ↔ (now - due).toNat ≤ 8388607 := by
  rw [reached, decide_eq_true_iff, Config.tickHalfRange]

theorem State.TableLaw.slots_le {s : State} (h : s.TableLaw) : s.table.slots.length ≤ 4 := h.1.1

/-- The Close Scheduler at a lawful IN_STEP station (R32). -/
theorem State.scheduleCloses_acts {s : State} (hi : s.stepState = .inStep) (ho : s.OutboxLaw) (ht : s.TableLaw) :
    s.scheduleCloses.ReachedDuesQueued ∧ (∀ e ∈ s.tx.outbox, e ∈ s.scheduleCloses.tx.outbox)
      ∧ ∀ e ∈ s.scheduleCloses.tx.outbox, e ∈ s.tx.outbox
          ∨ ∃ r ∈ s.table.slots, reachedOpt s.tick r.due = true ∧ e = Entry.fresh (.close r.number) := by
  simp only [State.ReachedDuesQueued, State.scheduleCloses, hi, if_true]
  exact scheduleCloses_reached s.tick _ _ s.tx ht.slots_le (fun _ hr => hr) ho.closesName

theorem State.expired_claim (s : State) (b : Body) (h : s.expired b = true) : b.isKind .claim = true := by
  cases b <;> simp [State.expired] at h
  rfl

/-- The expiry test with nothing deferred: expired claims leave or take a mark (R72, R83). -/
theorem State.testExpiry_of_nil {s : State} (hd : s.tx.deferred = []) : s.testExpiry =
    { s.rise .claimsWithdrawn
        (s.tx.outbox.filter (fun e => s.expired e.body && !e.sending)).length with
      tx := { s.tx with
        outbox := (s.tx.outbox.filter (fun e => !s.expired e.body || e.sending)).map
          (fun e => if s.expired e.body then { e with mark := true } else e) } } := by
  have hcount : s.tx.withdrawnClaims s.expired
      = (s.tx.outbox.filter (fun e => s.expired e.body && !e.sending)).length := by
    refine congrArg List.length (List.filter_congr fun e _ => ?_)
    cases he : s.expired e.body with
    | false => rfl
    | true => rw [s.expired_claim e.body he, Bool.and_true]
  have htx : s.tx.withdraw s.expired = { s.tx with
      outbox := (s.tx.outbox.filter (fun e => !s.expired e.body || e.sending)).map
        (fun e => if s.expired e.body then { e with mark := true } else e) } := by
    simp [Transmitter.withdraw, Transmitter.admitDeferred, admitOffers, hd]
  rw [State.testExpiry, State.withdraw, hcount, htx]
  rfl

/-- Settles O57: the Close Scheduler, the expiry test, and when a claim has expired. -/
theorem duesAndExpiriesAreActedOn : Obligations.DuesAndExpiriesAreActedOn := by
  intro s hr ho ht
  have hexec : ∀ f : State → State, s.unlessReset f = f s := fun f => by simp [State.unlessReset, hr]
  refine ⟨fun hi => ⟨_, congrArg Host.Outcome.next (hexec _), rfl, State.scheduleCloses_acts hi ho ht⟩,
    fun hd => ?_, fun stamp epoch => ?_⟩
  · exact congrArg Host.Outcome.next ((hexec _).trans (State.testExpiry_of_nil hd))
  · exact reached_iff _ _

end Sys2Proof.Machine

/-! The resync deadlines (O59). -/

namespace Sys2Proof.Machine

/-! ### A failure, by what follows it (R122 to R124) -/

/-- The station as a failure leaves it before the next request is decided (R122). -/
def State.failed (n : Nat) (s : State) : State :=
  { s.rise .resyncsFailed 1 with
    requester := { s.requester with phase := .requesting none, unanswered := n, hold := [] } }

/-- A failure, by the unanswered count after it and the self-assert check (R123, R124). -/
theorem State.fail_cases (k : FailKind) (s : State) :
    (unansweredAfter k s.requester.unanswered < 4 →
        s.fail k = (s.failed (unansweredAfter k s.requester.unanswered)).nextAttempt)
      ∧ (4 ≤ unansweredAfter k s.requester.unanswered → s.selfAsserts = true →
          s.fail k = (s.failed (unansweredAfter k s.requester.unanswered)).selfAssert)
      ∧ (4 ≤ unansweredAfter k s.requester.unanswered → s.selfAsserts = false →
          s.fail k = { s.failed (unansweredAfter k s.requester.unanswered) with
            requester := { phase := .retryWait (s.tick + 1024), attempt := s.requester.attempt,
                           unanswered := unansweredAfter k s.requester.unanswered, hold := [] } }) := by
  have hassert : (s.failed (unansweredAfter k s.requester.unanswered)).selfAsserts = s.selfAsserts := rfl
  have hfail : s.fail k = if unansweredAfter k s.requester.unanswered < 4
      then (s.failed (unansweredAfter k s.requester.unanswered)).nextAttempt
      else if s.selfAsserts = true
        then (s.failed (unansweredAfter k s.requester.unanswered)).selfAssert
        else { s.failed (unansweredAfter k s.requester.unanswered) with
            requester := { phase := .retryWait (s.tick + 1024), attempt := s.requester.attempt,
                           unanswered := unansweredAfter k s.requester.unanswered, hold := [] } } := rfl
  refine ⟨fun hlt => ?_, fun hge ha => ?_, fun hge ha => ?_⟩
  · rw [hfail, if_pos hlt]
  · rw [hfail, if_neg (not_lt.mpr hge), if_pos ha]
  · rw [hfail, if_neg (not_lt.mpr hge), if_neg (by simp [ha])]

theorem unansweredAfter_unanswered (n : Nat) : unansweredAfter .unanswered n = min 4 (n + 1) := rfl

/-- The next attempt offers a STATE_REQ with the next number (R107, R123). -/
theorem State.nextAttempt_acts (s : State) :
    s.nextAttempt.requester = { s.requester with phase := .requesting none,
                                                 attempt := satAdd8 s.requester.attempt 1 }
      ∧ s.nextAttempt.table = s.table ∧ s.nextAttempt.counters = s.counters
      ∧ s.nextAttempt.stepState = s.stepState
      ∧ (s.tx.queued .stateReq = false →
          s.nextAttempt.tx.Offers (.stateReq s.fingerprint (satAdd8 s.requester.attempt 1))) :=
  ⟨rfl, rfl, rfl, rfl, fun hq => Transmitter.offer_offers _ _ hq⟩

/-- The self-assert: IN_STEP with the own table, a due for every open record (R124). -/
theorem State.selfAssert_acts (s : State) :
    s.selfAssert.stepState = .inStep ∧ s.selfAssert.hasFlag .selfAsserted = true
      ∧ s.selfAssert.requester = Requester.idle
      ∧ s.selfAssert.table = { s.table with slots := s.table.slots.map (fun r =>
          { r with due := some (closeDue s.params s.addr r.opener r.t0) }) }
      ∧ s.selfAssert.tick = s.tick := by
  have hflag := State.hasFlag_setFlag_self .selfAsserted s
  refine ⟨by simp [State.selfAssert], ?_, by simp [State.selfAssert], ?_, by simp [State.selfAssert]⟩
  · simpa [State.selfAssert, State.hasFlag] using hflag
  · simp [State.selfAssert, State.computeDues]

/-- Whatever follows a failure, the replicated part of the table stands and the hold queue is empty
(R122). -/
theorem State.fail_keeps (k : FailKind) (s : State) :
    (s.fail k).table.shared = s.table.shared ∧ (s.fail k).requester.hold = [] := by
  obtain ⟨hnext, hassert, hwait⟩ := s.fail_cases k
  by_cases hlt : unansweredAfter k s.requester.unanswered < 4
  · rw [hnext hlt]; exact ⟨rfl, rfl⟩
  · cases ha : s.selfAsserts with
    | false => rw [hwait (not_lt.mp hlt) ha]; exact ⟨rfl, rfl⟩
    | true =>
      rw [hassert (not_lt.mp hlt) ha]
      obtain ⟨-, -, hrequester, htable, -⟩ :=
        (s.failed (unansweredAfter k s.requester.unanswered)).selfAssert_acts
      refine ⟨?_, by rw [hrequester]; rfl⟩
      rw [htable]
      simp [Table.shared, EventRecord.replicated, State.failed]

/-- A failure raises RESYNCS_FAILED by 1. -/
theorem State.fail_counts (k : FailKind) (s : State) :
    (s.fail k).counter .resyncsFailed = satAdd16 (s.counter .resyncsFailed) 1 := by
  rw [State.counter_fail, State.counter_rise_self]

/-- The self-assert at a lawful OUT_OF_STEP station queues a CLOSE for each due already reached, and nothing
else (R31, R32, R124). -/
theorem State.selfAssert_reached {s x : State} (hx : x = s.failed 4) (ho : s.OutboxLaw) (ht : s.TableLaw) :
    x.selfAssert.ReachedDuesQueued ∧ (∀ e ∈ s.tx.outbox, e ∈ x.selfAssert.tx.outbox)
      ∧ ∀ e ∈ x.selfAssert.tx.outbox, e ∈ s.tx.outbox ∨ ∃ r ∈ x.selfAssert.table.slots,
          reachedOpt x.selfAssert.tick r.due = true ∧ e = Entry.fresh (.close r.number) := by
  have hreached := State.computeDues_reached
    { x.setFlag .selfAsserted with stepState := .inStep, requester := Requester.idle } rfl
    (by rw [hx]; exact ho.closesName) (by rw [hx]; exact ht.slots_le)
  obtain ⟨-, -, -, -, htick⟩ := x.selfAssert_acts
  rw [htick]
  rw [hx] at hreached ⊢
  exact hreached

/-! ### The self-assert check (R124) -/

theorem mem_allAddrs (a : Addr) : a ∈ allAddrs := by
  revert a
  decide

theorem State.selfAsserts_iff (s : State) : s.selfAsserts = true ↔
    (¬∃ a : Addr, a ≠ s.addr ∧ (s.roster.entry a).presence = .present
        ∧ (s.roster.entry a).inStep = true ∧ (s.roster.entry a).mismatched = false)
      ∧ ∀ a : Addr, a ≠ s.addr → (s.roster.entry a).presence = .present → s.addr < a := by
  have hall : s.selfAsserts = true ↔ ∀ a : Addr, a ≠ s.addr → (s.roster.entry a).presence = .present →
      ¬((s.roster.entry a).inStep = true ∧ (s.roster.entry a).mismatched = false) ∧ s.addr < a := by
    simp only [State.selfAsserts, State.peerPresent, List.all_eq_true, mem_allAddrs, true_imp_iff]
    refine forall_congr' fun a => ?_
    by_cases hown : a = s.addr
    · simp [hown]
    by_cases hpresent : (s.roster.entry a).presence = .present
    · cases (s.roster.entry a).inStep <;> simp [hown, hpresent]
    · simp [hown, hpresent]
  rw [hall]
  exact ⟨fun h => ⟨fun ⟨a, hne, hpresent, hmarks⟩ => (h a hne hpresent).1 hmarks,
      fun a hne hpresent => (h a hne hpresent).2⟩,
    fun ⟨hnone, hhigher⟩ a hne hpresent =>
      ⟨fun hmarks => hnone ⟨a, hne, hpresent, hmarks⟩, hhigher a hne hpresent⟩⟩

/-! ### The obligation -/

/-- Settles O59: the failure by what follows it, the chunk deadline, the retry tick, and the check. -/
theorem resyncDeadlinesAreActedOn : Obligations.ResyncDeadlinesAreActedOn := by
  refine ⟨fun d s hr hd => ?_, State.selfAsserts_iff⟩
  have hreached : reached s.tick d = true := (reached_iff _ _).mpr hd
  have hexec : ∀ f : State → State, s.unlessReset f = f s := fun f => by simp [State.unlessReset, hr]
  refine ⟨fun hp => ?_, fun c hp hc => ?_, fun hp => ?_⟩
  · have hrun : s.testRequest = s.fail .unanswered := by simp [State.testRequest, hp, hreached]
    obtain ⟨hnext, hassert, hwait⟩ := s.fail_cases .unanswered
    obtain ⟨hshared, hhold⟩ := s.fail_keeps .unanswered
    rw [unansweredAfter_unanswered] at hnext hassert hwait
    refine ⟨_, congrArg Host.Outcome.next ((hexec _).trans hrun), s.fail_counts _, hshared, by simp, hhold,
      fun hlt => ?_, fun hge ha => ?_, fun hge ha => ?_⟩
    · rw [hnext (by omega), Nat.min_eq_right (by omega)]
      obtain ⟨-, -, -, -, hoffers⟩ := (s.failed (s.requester.unanswered + 1)).nextAttempt_acts
      exact ⟨rfl, rfl, hoffers⟩
    · have hfail := hassert (by omega) ha
      rw [Nat.min_eq_left (by omega)] at hfail
      obtain ⟨hstep, hflag, hrequester, htable, -⟩ := (s.failed 4).selfAssert_acts
      have hdone : (s.fail .unanswered).counter .resyncsDone = s.counter .resyncsDone := by
        rw [State.counter_fail, State.counter_rise_other _ _ _ _ (by decide)]
      rw [hfail] at hdone ⊢
      exact ⟨hstep, hflag, hrequester, hdone, htable, fun _ ho ht => State.selfAssert_reached rfl ho ht⟩
    · rw [hwait (by omega) ha]
      exact ⟨rfl, rfl, rfl⟩
  · have hrun : s.testChunk = s.fail .chunkTimeout := by simp [State.testChunk, hp, hc, hreached]
    obtain ⟨frequester, ftable, -, fcounter, foffers⟩ := s.fail_answered (k := .chunkTimeout) (by decide)
    exact ⟨_, congrArg Host.Outcome.next ((hexec _).trans hrun), ftable, fcounter, frequester, foffers⟩
  · have hrun : s.testRetry = s.nextAttempt := by simp [State.testRetry, hp, hreached]
    obtain ⟨nrequester, ntable, ncounters, -, noffers⟩ := s.nextAttempt_acts
    exact ⟨_, congrArg Host.Outcome.next ((hexec _).trans hrun), ntable, ncounters, nrequester, noffers⟩

end Sys2Proof.Machine

/-! The eighth bit error (O34). -/

namespace Sys2Proof.Machine

/-! ### The discard, before its block is told (R59) -/

/-- The station after the break and the discard of the entry in transmission. -/
def State.discarded (s : State) : State :=
  { (s.driveBreak.rise .txAborts 1).rise .txDiscards 1 with
    tx := { s.tx.dropSending with breaking := true, recessive := 0, discards := s.tx.discards + 1 } }

/-- The eighth error of an entry, no third discard in a row, tells the entry's block (R58, R59). -/
theorem State.exec_bitError_eighth {s : State} {e : Entry} (hr : s.inReset = false) (he : s.tx.Sends e)
    (hl : s.tx.Law) (ha : e.attempts = 7) (hd : s.tx.discards < 2) :
    exec .bitError s = .next (s.discarded.afterDiscard e.body.kind) := by
  have hentry := sendingEntry_eq s.tx e hl he.online he.mem he.sending
  have honline : s.onLine = true := by simp [State.onLine, hr, he.online]
  have hbelow : ¬Config.maxDiscards ≤ s.driveBreak.tx.discards + 1 := by
    change ¬3 ≤ s.tx.discards + 1
    omega
  simp only [exec, execBitError, honline, hentry, if_true, State.bitError, State.discard, ha, Config.maxAttempts,
    State.rise_tx, hbelow, if_false]
  rfl

theorem State.discarded_fields (s : State) :
    s.discarded.counter .txAborts = satAdd16 (s.counter .txAborts) 1
      ∧ s.discarded.counter .txDiscards = satAdd16 (s.counter .txDiscards) 1
      ∧ s.discarded.counter .claimsWithdrawn = s.counter .claimsWithdrawn
      ∧ s.discarded.table = s.table ∧ s.discarded.stepState = s.stepState ∧ s.discarded.tick = s.tick
      ∧ s.discarded.requester = s.requester ∧ s.discarded.responder = s.responder
      ∧ s.discarded.lastClaimed = s.lastClaimed ∧ s.discarded.flags = s.flags
      ∧ s.discarded.fingerprint = s.fingerprint ∧ s.discarded.transmits = s.transmits
      ∧ s.discarded.presenceTick = s.presenceTick ∧ s.discarded.delayEnd = s.delayEnd := by
  have hcounters : s.discarded.counters = ((s.rise .txAborts 1).rise .txDiscards 1).counters := by
    simp [State.discarded]
  have hcount : ∀ k, s.discarded.counter k = ((s.rise .txAborts 1).rise .txDiscards 1).counter k := fun k => by
    rw [State.counter, hcounters, State.counter]
  refine ⟨?_, ?_, ?_, by simp [State.discarded, State.transmits, State.presenceTick, State.delayEnd]⟩
  · rw [hcount, State.counter_rise_other _ _ _ _ (by decide), State.counter_rise_self]
  · rw [hcount, State.counter_rise_self, State.counter_rise_other _ _ _ _ (by decide)]
  · rw [hcount, State.counter_rise_other _ _ _ _ (by decide), State.counter_rise_other _ _ _ _ (by decide)]

/-- After the discard no entry is in transmission, and every waiting one stands (R59). -/
theorem State.mem_discarded {s : State} {x : Entry} (hx : x ∈ s.discarded.tx.outbox) :
    x ∈ s.tx.waiting ∨ ∃ b ∈ s.tx.deferred, x = Entry.fresh b := mem_admitOffers s.tx.deferred s.tx.waiting x hx

theorem State.discarded_of_waiting {s : State} {x : Entry} (hx : x ∈ s.tx.waiting) :
    x ∈ s.discarded.tx.outbox := mem_admitOffers_of_mem s.tx.deferred s.tx.waiting x hx

theorem State.discarded_of_nil {s : State} (hd : s.tx.deferred = []) :
    s.discarded.tx.outbox = s.tx.waiting := s.tx.dropSending_outbox hd

/-- The kind of the entry that has left stands no more, where it stands once at most (R68). -/
theorem State.discarded_unqueued {s : State} {e : Entry} (he : s.tx.Sends e) (hl : s.tx.Law)
    (hc : e.body.kind ≠ .claim) (hd : e.body.kind ≠ .close) : s.discarded.tx.queued e.body.kind = false := by
  have hgone := he.dropSending_queued hl e.body.kind hc hd
  rw [Body.isKind, beq_self_eq_true, Bool.not_true, Bool.and_false] at hgone
  exact hgone

/-! ### What the blocks do (R32, R103, R109, R130) -/

theorem Transmitter.mem_offer_of_mem {t : Transmitter} {b : Body} {x : Entry} (hx : x ∈ t.outbox) :
    x ∈ (t.offer b).outbox := by
  unfold Transmitter.offer Transmitter.admitEntry
  (repeat' split)
  · exact hx
  · exact (mem_insertEntry _ _ _).mpr (.inr hx)
  · exact hx

/-- The block that is told takes no entry out of the outbox, and brings fresh ones alone. -/
theorem State.afterDiscard_outbox (k : Kind) (d : State) :
    (∀ x ∈ d.tx.outbox, x ∈ (d.afterDiscard k).tx.outbox)
      ∧ ∀ x ∈ (d.afterDiscard k).tx.outbox, x ∈ d.tx.outbox ∨ ∃ b, x = Entry.fresh b := by
  have hsame : (∀ x ∈ d.tx.outbox, x ∈ d.tx.outbox)
      ∧ ∀ x ∈ d.tx.outbox, x ∈ d.tx.outbox ∨ ∃ b, x = Entry.fresh b := ⟨fun _ hx => hx, fun _ hx => .inl hx⟩
  have hoffer : ∀ b, (∀ x ∈ d.tx.outbox, x ∈ (d.tx.offer b).outbox)
      ∧ ∀ x ∈ (d.tx.offer b).outbox, x ∈ d.tx.outbox ∨ ∃ b, x = Entry.fresh b := fun b =>
    ⟨fun _ hx => Transmitter.mem_offer_of_mem hx, fun x hx => by
      rcases Transmitter.mem_offer hx with rfl | hx
      · exact .inr ⟨b, rfl⟩
      · exact .inl hx⟩
  cases k with
  | epoch => exact hsame
  | clear => exact hsame
  | claim => exact hsame
  | state => simpa [State.afterDiscard] using hsame
  | stateReq =>
    unfold State.afterDiscard
    dsimp only
    split
    · exact hoffer _
    · exact hsame
  | presence =>
    unfold State.afterDiscard State.offerPresence
    dsimp only
    split
    · exact hoffer _
    · exact hsame
  | close =>
    unfold State.afterDiscard State.scheduleCloses
    dsimp only
    split
    · exact ⟨fun x hx => scheduleCloses_mem _ _ _ _ hx, fun x hx =>
        (mem_scheduleCloses hx).imp id fun ⟨n, hn⟩ => ⟨_, hn⟩⟩
    · exact hsame

/-- The entry that leaves freed a general place (R68). -/
theorem Transmitter.Sends.waiting_room {t : Transmitter} {e : Entry} (he : t.Sends e) (hl : t.Law)
    (hg : e.body.kind.general = true) : generalCount t.waiting < Config.maxGeneral := by
  have hle := hl.loose.entries.general
  have hfewer : ((t.outbox.filter (fun x => x.body.kind.general)).filter (fun x => !x.sending)).length
      < (t.outbox.filter (fun x => x.body.kind.general)).length :=
    List.length_filter_lt_length_iff_exists.mpr
      ⟨e, List.mem_filter.mpr ⟨he.mem, hg⟩, by simp [he.sending]⟩
  unfold generalCount Transmitter.waiting at *
  rw [List.filter_filter] at hfewer ⊢
  simp only [Bool.and_comm] at hfewer ⊢
  omega

theorem eq_of_nodup_filterMap {α β : Type} {f : α → Option β} {l : List α} {x y : α} {b : β}
    (h : (l.filterMap f).Nodup) (hx : x ∈ l) (hy : y ∈ l) (hfx : f x = some b) (hfy : f y = some b) : x = y := by
  induction l with
  | nil => cases hx
  | cons z zs ih =>
    have hrest := ((List.sublist_cons_self z zs).filterMap f).nodup h
    rcases List.mem_cons.mp hx with rfl | hxs <;> rcases List.mem_cons.mp hy with rfl | hys
    · rfl
    · rw [List.filterMap_cons, hfx] at h
      exact absurd (List.mem_filterMap.mpr ⟨y, hys, hfy⟩) (List.nodup_cons.mp h).1
    · rw [List.filterMap_cons, hfy] at h
      exact absurd (List.mem_filterMap.mpr ⟨x, hxs, hfx⟩) (List.nodup_cons.mp h).1
    · exact ih hrest hxs hys

/-- Two entries of a lawful outbox that name the same CLOSE are one (R68). -/
theorem Transmitter.Law.close_unique {t : Transmitter} (hl : t.Law) {x y : Entry} {n : Half} (hx : x ∈ t.outbox)
    (hy : y ∈ t.outbox) (hxn : x.body = .close n) (hyn : y.body = .close n) : x = y := by
  exact eq_of_nodup_filterMap hl.loose.entries.named hx hy (by rw [hxn]; rfl) (by rw [hyn]; rfl)

/-! ### Kind by kind -/

theorem State.mem_scheduleCloses {d : State} {x : Entry} (hx : x ∈ d.scheduleCloses.tx.outbox) :
    x ∈ d.tx.outbox
      ∨ ∃ r ∈ d.table.slots, reachedOpt d.tick r.due = true ∧ x = Entry.fresh (.close r.number) := by
  unfold State.scheduleCloses at hx
  dsimp only at hx
  split at hx
  · exact mem_scheduleCloses_names hx
  · exact .inl hx

/-- A discarded CLOSE whose due stands reached is queued afresh (R32, R59). -/
theorem State.discarded_close_afresh {s : State} {e : Entry} {r : EventRecord} (he : s.tx.Sends e)
    (ho : s.OutboxLaw) (ht : s.TableLaw) (hb : e.body = .close r.number) (hi : s.stepState = .inStep)
    (hr : r ∈ s.table.slots) (hd : reachedOpt s.tick r.due = true) :
    Entry.fresh (.close r.number) ∈ s.discarded.scheduleCloses.tx.outbox := by
  obtain ⟨-, -, -, htable, hstep, htick, -⟩ := s.discarded_fields
  have hscheduled : s.discarded.scheduleCloses.tx.outbox.any (fun x => x.body == .close r.number) = true := by
    have hnames : s.discarded.tx.ClosesName s.table.slots := ho.completed_closesName
    have hreached := scheduleCloses_reached s.tick s.table.slots s.table.slots s.discarded.tx ht.slots_le
      (fun _ hx => hx) hnames
    simp only [State.scheduleCloses, htable, hstep, htick, hi, if_true]
    exact hreached.1 r hr hd
  obtain ⟨x, hx, hxb⟩ := List.any_eq_true.mp hscheduled
  rw [beq_iff_eq] at hxb
  rcases State.mem_scheduleCloses hx with hold | ⟨q, -, -, rfl⟩
  · rcases State.mem_discarded hold with hwaiting | ⟨b, hbm, rfl⟩
    · obtain ⟨hmem, hstill⟩ := (Transmitter.mem_waiting x s.tx).mp hwaiting
      rw [ho.1.close_unique hmem he.mem hxb hb, he.sending] at hstill
      cases hstill
    · exact absurd hxb ((Body.offered_side (ho.1.deferred_kind b hbm)).2 _)
  · have hnumber : q.number = r.number := by simpa [Entry.fresh] using hxb
    rwa [hnumber] at hx

/-- A discarded STATE_REQ stands offered again, its request not yet sent (R109). -/
theorem State.discarded_stateReq {s : State} {e : Entry} (he : s.tx.Sends e) (ho : s.OutboxLaw)
    (hb : e.body.kind = .stateReq) : (s.discarded.afterDiscard .stateReq).tx
      = s.discarded.tx.offer (.stateReq s.fingerprint s.requester.attempt) := by
  have hqueued : s.tx.queued .stateReq = true := by
    rw [Transmitter.queued, Transmitter.holds, Bool.or_eq_true, List.any_eq_true]
    exact .inl ⟨e, he.mem, by simp [Body.isKind, hb]⟩
  obtain ⟨-, -, -, -, hasks, -⟩ := ho
  have hphase : s.requester.phase = .requesting none := hasks.mp hqueued
  obtain ⟨-, -, -, -, -, -, hrequester, -⟩ := s.discarded_fields
  unfold State.afterDiscard
  dsimp only
  rw [hrequester, if_pos hphase]
  rfl

/-- A discarded PRESENCE stands offered again while its tick stands reached (R103). -/
theorem State.discarded_presence {s : State} {e : Entry} (he : s.tx.Sends e) (ho : s.OutboxLaw) :
    (s.discarded.afterDiscard .presence).tx = if reached s.tick s.presenceTick = true
      then s.discarded.tx.offer (.presence s.fingerprint) else s.discarded.tx := by
  have htransmits : s.transmits = true := by
    by_contra hnot
    have hempty := (ho.2.1 (by simpa using hnot)).1
    have := he.mem
    rw [hempty] at this; cases this
  obtain ⟨-, -, -, -, -, htick, -, -, -, -, hfingerprint, hsame, hpresence, -⟩ := s.discarded_fields
  unfold State.afterDiscard State.offerPresence
  dsimp only
  rw [htick, hfingerprint, hsame, hpresence, htransmits, Bool.true_and]

/-- An offer afresh of the kind that has left: it stands, and with nothing deferred in its place in the outbox
(R69 to R71). -/
theorem State.discarded_offers {s : State} {e : Entry} {b : Body} (he : s.tx.Sends e) (hl : s.tx.Law)
    (hb : e.body.kind = b.kind) (hk : b.kind = .stateReq ∨ b.kind = .presence) :
    (s.discarded.tx.offer b).Offers b
      ∧ (s.tx.deferred = [] → (s.discarded.tx.offer b).outbox = insertEntry (Entry.fresh b) s.tx.waiting) := by
  have hgeneral : e.body.kind.general = true := by rw [hb]; rcases hk with hk | hk <;> rw [hk] <;> rfl
  have hgone : s.discarded.tx.queued b.kind = false := by
    rw [← hb]
    refine s.discarded_unqueued he hl ?_ ?_ <;> rw [hb] <;> rcases hk with hk | hk <;> rw [hk] <;> decide
  refine ⟨Transmitter.offer_offers _ _ hgone, fun hd => ?_⟩
  have hroom := he.waiting_room hl hgeneral
  rw [← s.discarded_of_nil hd] at hroom ⊢
  rw [Transmitter.offer, if_neg (by simp [hgone]), if_pos hroom]
  rfl

/-- The service ends with its STATE entry: a latched address is taken into a new delay (R130). -/
theorem State.discarded_state {s : State} {e : Entry} (he : s.tx.Sends e) (ho : s.OutboxLaw)
    (hb : e.body.kind = .state) : (s.discarded.afterDiscard .state).responder =
      match s.responder.latch with
      | some a => { phase := .delay a (s.tick + BitVec.ofNat 24 (4 * (s.addr.toNat + 1))), latch := none }
      | none   => Responder.idle := by
  have hqueued : s.tx.queued .state = true := by
    rw [Transmitter.queued, Transmitter.holds, Bool.or_eq_true, List.any_eq_true]
    exact .inl ⟨e, he.mem, by simp [Body.isKind, hb]⟩
  obtain ⟨-, -, -, hstate, -⟩ := ho
  have hserves : s.responder.phase.isSending = true := hstate ▸ hqueued
  obtain ⟨-, -, -, -, -, -, -, hresponder, -, -, -, -, -, hdelay⟩ := s.discarded_fields
  cases hphase : s.responder.phase with
  | idle => rw [hphase] at hserves; cases hserves
  | delay t d => rw [hphase] at hserves; cases hserves
  | sending t b total next sent =>
    have hlatch : s.discarded.chunkDiscarded = s.discarded.takeLatch := by
      unfold State.chunkDiscarded
      rw [hresponder, hphase]
    change s.discarded.chunkDiscarded.responder = _
    rw [hlatch, State.takeLatch, hresponder, hdelay]
    rfl

theorem State.afterDiscard_plain {k : Kind} (d : State)
    (hk : k = .claim ∨ k = .clear ∨ k = .epoch ∨ k = .state) : (d.afterDiscard k).tx = d.tx := by
  rcases hk with rfl | rfl | rfl | rfl <;> simp [State.afterDiscard]

theorem State.afterDiscard_responder {k : Kind} (d : State) (hk : k ≠ .state) :
    (d.afterDiscard k).responder = d.responder := by
  cases k with
  | state => exact absurd rfl hk
  | stateReq => unfold State.afterDiscard; dsimp only; split <;> rfl
  | _ => rfl

/-- Settles O34: the break and the discard, then what the block of each kind does. -/
theorem eighthBitErrorDiscards : Obligations.EighthBitErrorDiscards := by
  intro s e hr honline ho ht hmem hsending hattempts hdiscards
  have he : s.tx.Sends e := ⟨honline, hmem, hsending⟩
  obtain ⟨haborts, hdiscarded, hclaims, htable, hstep, htick, hrequester, hresponder, hclaimed, hflags, -⟩ :=
    s.discarded_fields
  obtain ⟨hkept, hnew⟩ := s.discarded.afterDiscard_outbox e.body.kind
  have hcounter : ∀ k, (s.discarded.afterDiscard e.body.kind).counter k = s.discarded.counter k := fun k => by
    simp [State.counter]
  have hgone : ∀ k, e.body.kind = k → k ≠ .claim → k ≠ .close → s.discarded.tx.queued k = false :=
    fun k hk hc hd => by subst hk; exact s.discarded_unqueued he ho.1 hc hd
  refine ⟨_, s.exec_bitError_eighth hr he ho.1 hattempts hdiscards, by simp [State.discarded], ?_,
    (hcounter _).trans haborts, (hcounter _).trans hdiscarded, (hcounter _).trans hclaims,
    by simp [State.discarded], by simpa using hstep, by simpa using htable, by simpa using hrequester,
    by simpa using hclaimed, by simpa using hflags, fun x hx => ?_,
    fun x hx => hkept x (State.discarded_of_waiting hx), fun hb => ?_, fun hb hd => ?_,
    fun r hslot hb hi hdue => ?_, fun hb hd x hx => ?_, fun hb => ?_, fun hb hdue => ?_, fun hb hdue => ?_,
    fun hb => ?_, fun hb => ?_⟩
  · simp [State.discarded, Transmitter.dropSending_eq, Transmitter.admitDeferred]
  · rcases hnew x hx with hx | ⟨b, rfl⟩
    · rcases State.mem_discarded hx with hx | ⟨b, -, rfl⟩
      · exact ((Transmitter.mem_waiting x s.tx).mp hx).2
      · rfl
    · rfl
  · have hnone := hgone _ rfl (by rcases hb with hb | hb <;> rw [hb] <;> decide)
      (by rcases hb with hb | hb <;> rw [hb] <;> decide)
    rw [s.discarded.afterDiscard_plain (.inr (hb.imp id .inl))]
    rw [Transmitter.queued, Bool.or_eq_false_iff] at hnone
    exact hnone.1
  · rw [s.discarded.afterDiscard_plain hb, s.discarded_of_nil hd]
  · rw [hb]
    exact s.discarded_close_afresh he ho ht hb hi hslot hdue
  · rw [hb] at hx
    rcases State.mem_scheduleCloses hx with hx | ⟨r, hslot, hdue, rfl⟩
    · rw [s.discarded_of_nil hd] at hx
      exact .inl hx
    · rw [htick] at hdue
      rw [htable] at hslot
      exact .inr ⟨r, hslot, hdue, rfl⟩
  · rw [hb, s.discarded_stateReq he ho hb]
    exact s.discarded_offers he ho.1 hb (.inl rfl)
  · have hreached : reached s.tick s.presenceTick = true := (reached_iff _ _).mpr hdue
    rw [hb, s.discarded_presence he ho, if_pos hreached]
    exact s.discarded_offers he ho.1 hb (.inr rfl)
  · have hreached : ¬reached s.tick s.presenceTick = true := fun h =>
      absurd ((reached_iff _ _).mp h) (not_le.mpr hdue)
    rw [hb, s.discarded_presence he ho, if_neg hreached]
    exact ⟨hgone _ hb (by decide) (by decide), s.discarded_of_nil⟩
  · rw [s.discarded.afterDiscard_responder hb, hresponder]
  · rw [hb, s.discarded_state he ho hb, s.discarded.afterDiscard_plain (.inr (.inr (.inr rfl)))]
    exact ⟨hgone _ hb (by decide) (by decide), rfl⟩

end Sys2Proof.Machine

/-! REF arrivals and sets of the tick counter (O20). -/

namespace Sys2Proof.Machine

/-! ### What the tests of a tick leave of the table (R74) -/

/-- The table keeps its count, its digest, its closed records and the number of open ones, and no station
begins to listen. -/
structure State.TableHeld (s t : State) : Prop where
  history : t.table.history = s.table.history
  count : t.table.count = s.table.count
  digest : t.table.digest = s.table.digest
  slots : t.table.slots.length = s.table.slots.length
  listening : t.stepState = .listening → s.stepState = .listening

theorem State.TableHeld.of_same {s t : State} (ht : t.table = s.table) (hs : t.stepState = s.stepState) :
    s.TableHeld t := ⟨by rw [ht], by rw [ht], by rw [ht], by rw [ht], fun h => hs ▸ h⟩

theorem State.TableHeld.trans {s t u : State} (h : s.TableHeld t) (g : t.TableHeld u) : s.TableHeld u :=
  ⟨g.history.trans h.history, g.count.trans h.count, g.digest.trans h.digest, g.slots.trans h.slots,
    fun hl => h.listening (g.listening hl)⟩

/-- A failure moves no record: a self-assert computes dues alone (R122 to R124). -/
theorem State.fail_tableHeld (k : FailKind) (s : State) : s.TableHeld (s.fail k) := by
  obtain ⟨hnext, hassert, hwait⟩ := s.fail_cases k
  by_cases hlt : unansweredAfter k s.requester.unanswered < 4
  · rw [hnext hlt]; exact .of_same rfl rfl
  · cases ha : s.selfAsserts with
    | false => rw [hwait (not_lt.mp hlt) ha]; exact .of_same rfl rfl
    | true =>
      rw [hassert (not_lt.mp hlt) ha]
      obtain ⟨hstep, -, -, htable, -⟩ :=
        (s.failed (unansweredAfter k s.requester.unanswered)).selfAssert_acts
      refine ⟨by rw [htable]; rfl, by rw [htable]; rfl, by rw [htable]; rfl, ?_, fun hl => ?_⟩
      · rw [htable]; exact List.length_map _
      · rw [hstep] at hl; cases hl

theorem State.testRequest_tableHeld (s : State) : s.TableHeld s.testRequest := by
  unfold State.testRequest
  (repeat' split)
  · exact s.fail_tableHeld _
  · exact .of_same rfl rfl
  · exact .of_same rfl rfl

theorem State.testChunk_tableHeld (s : State) : s.TableHeld s.testChunk := by
  unfold State.testChunk
  (repeat' split)
  · exact s.fail_tableHeld _
  · exact .of_same rfl rfl
  · exact .of_same rfl rfl

theorem State.testListening_of_ne {s : State} (h : s.stepState ≠ .listening) : s.testListening = s := by
  unfold State.testListening
  rw [if_neg fun hl => h hl.1]

/-- The tests at a station that does not listen (R74). -/
theorem State.offerTick_tableHeld {s : State} (h : s.stepState ≠ .listening) : s.TableHeld s.offerTick := by
  have hfirst : s.TableHeld s.testExpiry.scheduleCloses.offerPresence.markAbsent :=
    .of_same (by simp) (by simp)
  have hrequest := hfirst.trans (State.testRequest_tableHeld _)
  have hchunk := hrequest.trans (State.testChunk_tableHeld _)
  have hdelay := hchunk.trans (.of_same (t := s.testExpiry.scheduleCloses.offerPresence.markAbsent.testRequest
    |>.testChunk |>.testRetry |>.testDelay) (by simp) (by simp))
  unfold State.offerTick
  rw [State.testListening_of_ne fun hl => h (hdelay.listening hl)]
  exact hdelay

/-! ### A set of the counter (R75, R102, R115, R140) -/

/-- A tick that lies ahead, by less than half the range, is not reached. -/
theorem reached_ahead (now : Tick) (n : Nat) (hpos : 1 ≤ n) (hle : n ≤ 8388608) :
    reached now (tickPlus now n) = false := by
  rw [← Bool.not_eq_true, reached_iff, tickPlus]
  bv_omega

/-- A deadline that keeps its remaining ticks is reached after the set where it was before (R115). -/
theorem reached_rebase (old new due : Tick) : reached new (rebase old new due) = reached old due := by
  rw [Bool.eq_iff_iff, reached_iff, reached_iff, rebase]
  have hsame : new - (new + (due - old)) = old - due := by bv_omega
  rw [hsame]

/-- A failure leaves no sent request and no chunk context (R122, R123). -/
theorem State.fail_phase (k : FailKind) (s : State) : (∀ d, (s.fail k).requester.phase ≠ .requesting (some d))
    ∧ ∀ c, (s.fail k).requester.phase ≠ .receiving c := by
  obtain ⟨hnext, hassert, hwait⟩ := s.fail_cases k
  by_cases hlt : unansweredAfter k s.requester.unanswered < 4
  · rw [hnext hlt, (State.nextAttempt_acts _).1]
    exact ⟨fun _ h => (by cases h), fun _ h => (by cases h)⟩
  · cases ha : s.selfAsserts with
    | false =>
      rw [hwait (not_lt.mp hlt) ha]
      exact ⟨fun _ h => (by cases h), fun _ h => (by cases h)⟩
    | true =>
      obtain ⟨-, -, hrequester, -⟩ := (s.failed (unansweredAfter k s.requester.unanswered)).selfAssert_acts
      rw [hassert (not_lt.mp hlt) ha, hrequester]
      exact ⟨fun _ h => (by cases h), fun _ h => (by cases h)⟩

theorem State.setTick_presence {s : State} (new : Tick) (hp : s.params.inRange = true) :
    (∀ a, (s.setTick new).absent a = false) ∧ (s.setTick new).offerPresence = s.setTick new := by
  simp only [Params.inRange, Bool.and_eq_true, decide_eq_true_eq] at hp
  obtain ⟨⟨⟨⟨-, hlow⟩, hhigh⟩, -⟩, -⟩ := hp
  refine ⟨fun a => ?_, ?_⟩
  · by_cases habsent : (s.roster.entry a).presence = .absent
    · simp [State.absent, State.setTick, habsent]
    · have hheard : ((s.setTick new).roster.entry a).heard = new := by
        simpa [State.setTick] using RosterEntry.rebase_heard new _ habsent
      have hnot := reached_ahead new (4 * s.params.p.toNat) (by omega) (by omega)
      rw [State.absent, hheard]
      change (_ && reached new (tickPlus new (4 * s.params.p.toNat))) = false
      rw [hnot, Bool.and_false]
  · have hnot : reached (s.setTick new).tick (s.setTick new).presenceTick = false :=
      reached_ahead new s.params.p.toNat (by omega) (by omega)
    rw [State.offerPresence, hnot, Bool.and_false]
    rfl

theorem State.setTick_testRequest {s : State} (new : Tick) (h : s.testRequest = s) :
    (s.setTick new).testRequest = s.setTick new := by
  unfold State.testRequest at h ⊢
  cases hp : s.requester.phase with
  | requesting d =>
    cases d with
    | none => simp [State.setTick, hp, RequesterPhase.rebase]
    | some d =>
      have hnot : reached s.tick d = false := by
        rw [← Bool.not_eq_true]
        intro hreached
        simp only [hp, hreached, if_true] at h
        exact (s.fail_phase .unanswered).1 d (by rw [h]; exact hp)
      simp [State.setTick, hp, RequesterPhase.rebase, reached_rebase, hnot]
  | _ => simp [State.setTick, hp, RequesterPhase.rebase]

theorem State.setTick_testChunk {s : State} (new : Tick) (h : s.testChunk = s) :
    (s.setTick new).testChunk = s.setTick new := by
  unfold State.testChunk at h ⊢
  cases hp : s.requester.phase with
  | receiving c =>
    have hnot : reached s.tick c.deadline = false := by
      rw [← Bool.not_eq_true]
      intro hreached
      simp only [hp, hreached, if_true] at h
      exact (s.fail_phase .chunkTimeout).2 c (by rw [h]; exact hp)
    simp [State.setTick, hp, RequesterPhase.rebase, reached_rebase, hnot]
  | _ => simp [State.setTick, hp, RequesterPhase.rebase]

theorem State.setTick_testRetry {s : State} (new : Tick) (h : s.testRetry = s) :
    (s.setTick new).testRetry = s.setTick new := by
  unfold State.testRetry at h ⊢
  cases hp : s.requester.phase with
  | retryWait d =>
    have hnot : reached s.tick d = false := by
      rw [← Bool.not_eq_true]
      intro hreached
      simp only [hp, hreached, if_true] at h
      have hphase : s.nextAttempt.requester.phase = .requesting none := rfl
      rw [h, hp] at hphase
      cases hphase
    simp [State.setTick, hp, RequesterPhase.rebase, reached_rebase, hnot]
  | _ => simp [State.setTick, hp, RequesterPhase.rebase]

theorem State.setTick_testDelay {s : State} (new : Tick) (h : s.testDelay = s) :
    (s.setTick new).testDelay = s.setTick new := by
  unfold State.testDelay at h ⊢
  cases hp : s.responder.phase with
  | delay t e =>
    have hnot : reached s.tick e = false := by
      rw [← Bool.not_eq_true]
      intro hreached
      simp only [hp, hreached, if_true] at h
      have hphase : (s.beginService t).responder.phase.isSending = true := rfl
      rw [h, hp] at hphase
      cases hphase
    simp [State.setTick, hp, ResponderPhase.rebase, reached_rebase, hnot]
  | _ => simp [State.setTick, hp, ResponderPhase.rebase]

theorem State.setTick_testListening {s : State} (new : Tick) (h : s.testListening = s) :
    (s.setTick new).testListening = s.setTick new := by
  have hnot : ¬(s.stepState = .listening ∧ reachedOpt s.tick s.listeningEnd = true) := by
    rintro ⟨hl, hreached⟩
    rw [State.testListening, if_pos ⟨hl, hreached⟩] at h
    have hstep : s.found.stepState = .inStep := by
      unfold State.found
      dsimp only
      split <;> simp
    rw [h, hl] at hstep
    cases hstep
  have hsame : reachedOpt new (s.listeningEnd.map (rebase s.tick new)) = reachedOpt s.tick s.listeningEnd := by
    cases s.listeningEnd with
    | none => rfl
    | some e => exact reached_rebase _ _ _
  rw [State.testListening, if_neg]
  rintro ⟨hl, hreached⟩
  exact hnot ⟨hl, hsame ▸ hreached⟩

/-! ### The obligation -/

/-- Settles O20: the single tests, their sequence at an arrival, and the set of the counter. -/
theorem theCounterCountsAndIsSet : Obligations.TheCounterCountsAndIsSet := by
  refine ⟨fun s hr => ?_, fun s new hp => ?_⟩
  · have hexec : ∀ f : State → State, (.next (s.unlessReset f) : Host.Outcome State Fault Refusal) = .next (f s) :=
      fun f => by simp [State.unlessReset, hr]
    refine ⟨fun hun => ?_, hexec _, hexec _, hexec _, hexec _, hexec _, hexec _, hexec _, hexec _, hexec _,
      fun hconf => ⟨State.offerTick { s with tick := s.tick + 1 }, ?_, rfl, ?_⟩⟩
    · exact (hexec _).trans (by simp [State.configured, hun])
    · exact (hexec _).trans (by simp [State.configured, hconf])
    · simp only [State.offerTick_frame, true_and]
      intro hl
      have hheld := State.offerTick_tableHeld (s := { s with tick := s.tick + 1 }) hl
      exact ⟨hheld.history, hheld.count, hheld.digest, hheld.slots⟩
  · obtain ⟨habsent, hpresence⟩ := s.setTick_presence new hp
    exact ⟨habsent, hpresence, s.setTick_testRequest new, s.setTick_testChunk new, s.setTick_testRetry new,
      s.setTick_testDelay new, s.setTick_testListening new⟩

end Sys2Proof.Machine

/-! The phase law in two parts: what ties a station's configuration and tick to its step state, and what the
contexts, the streak and the line are in each step state (R49, R73, R92, R106, R110, R125, R135, R137, R140,
R146). -/

namespace Sys2Proof.Machine

/-! ### Sets of addresses (R101) -/

theorem hasAddr_addrBit (a b : Addr) : hasAddr (addrBit b) a = decide (a = b) := by
  revert a b
  decide

/-- The addresses `p` names are out of the set, and the others in it as before. -/
theorem hasAddr_dropAddrs (p : Addr → Bool) (x : AddrSet) (a : Addr) :
    hasAddr (dropAddrs p x) a = (hasAddr x a && !p a) := by
  have hfold : ∀ l : List Addr,
      hasAddr (l.foldl (fun acc b => if p b then acc &&& ~~~addrBit b else acc) x) a
        = (hasAddr x a && !(l.any fun b => b == a && p b)) := fun l => by
    induction l using List.reverseRecOn with
    | nil => simp
    | append_singleton l b ih =>
      have hbit := hasAddr_addrBit a b
      rw [List.foldl_append, List.foldl_cons, List.foldl_nil, List.any_append, Bool.not_or, ← Bool.and_assoc,
        ← ih]
      by_cases hp : p b = true
      · have hlt : a.toNat < 16 := a.isLt
        simp only [hp, if_true, hasAddr, BitVec.getLsbD_and, BitVec.getLsbD_not] at hbit ⊢
        rw [hbit]
        by_cases hab : a = b
        · simp [hab, hp]
        · simp [hab, Ne.symm hab, hlt]
      · simp [hp]
  have hany : (allAddrs.any fun b => b == a && p b) = p a := by
    cases hp : p a with
    | false => simp only [List.any_eq_false]; intro b _; by_cases hb : b = a <;> simp [hb, hp]
    | true => exact List.any_eq_true.mpr ⟨a, mem_allAddrs a, by simp [hp]⟩
  rw [dropAddrs, hfold, hany]

theorem addrCount_mono {x y : AddrSet} (h : ∀ a, hasAddr x a = true → hasAddr y a = true) :
    addrCount x ≤ addrCount y := by
  unfold addrCount
  rw [← List.countP_eq_length_filter, ← List.countP_eq_length_filter]
  exact List.countP_mono_left fun a _ => h a

theorem addrCount_dropAddrs_le (p : Addr → Bool) (x : AddrSet) : addrCount (dropAddrs p x) ≤ addrCount x :=
  addrCount_mono fun a ha => by
    rw [hasAddr_dropAddrs, Bool.and_eq_true] at ha
    exact ha.1

@[simp] theorem addrCount_zero : addrCount 0#16 = 0 := by decide

/-- No address can be out of an empty set. -/
theorem dropAddrs_zero (p : Addr → Bool) : dropAddrs p 0#16 = 0#16 := by
  have hfold : ∀ l : List Addr,
      l.foldl (fun acc b => if p b then acc &&& ~~~addrBit b else acc) (0 : AddrSet) = 0 := fun l => by
    induction l with
    | nil => rfl
    | cons b l ih => rw [List.foldl_cons]; split <;> simpa using ih
  exact hfold allAddrs

/-! ### The contexts in a step state -/

/-- The requester fits a step state: in a phase exactly in OUT_OF_STEP, its counts and its hold queue in
bounds (R106, R110). -/
structure Requester.Suits (step : StepState) (r : Requester) : Prop where
  phase : r.phase ≠ .none ↔ step = .outOfStep
  idle : r.phase = .none → r = Requester.idle
  unanswered : r.unanswered ≤ Config.maxUnanswered
  room : r.hold.length ≤ Config.maxHold
  collecting : r.hold ≠ [] → r.collecting = true

/-- The responder fits a step state: a context only in IN_STEP, its counts those of its snapshot (R125). -/
structure Responder.Suits (step : StepState) (r : Responder) : Prop where
  context : step ≠ .inStep → r = Responder.idle
  latch : r.phase = .idle → r.latch = none
  counts : r.phase.countsOk = true

/-- The streak fits a step state: below V where the station votes, empty elsewhere (R92). -/
structure StreakSuits (step : StepState) (v : Nat) (x : AddrSet) : Prop where
  below : step = .inStep ∨ step = .mute → addrCount x < v
  empty : ¬(step = .inStep ∨ step = .mute) → x = 0

theorem Requester.idle_suits {step : StepState} (h : step ≠ .outOfStep) : Requester.idle.Suits step :=
  ⟨by simp [Requester.idle, h], fun _ => rfl, by decide, by decide, by simp [Requester.idle]⟩

/-- A requester in a phase without held frames fits OUT_OF_STEP. -/
theorem Requester.suits_of_empty {r : Requester} (hp : r.phase ≠ .none)
    (hu : r.unanswered ≤ Config.maxUnanswered) (hh : r.hold = []) : r.Suits .outOfStep :=
  ⟨by simp [hp], fun h => absurd h hp, hu, by simp [hh], fun h => absurd hh h⟩

/-- The requester goes on in another phase, one that collects where the last one did. -/
theorem Requester.Suits.inPhase {step : StepState} {r : Requester} {p : RequesterPhase} (h : r.Suits step)
    (hr : r.phase ≠ .none) (hp : p ≠ .none)
    (hc : r.collecting = true → Requester.collecting { r with phase := p } = true) :
    Requester.Suits step { r with phase := p } :=
  ⟨by simp [hp, h.phase.mp hr], fun hn => absurd hn hp, h.unanswered, h.room, fun hh => hc (h.collecting hh)⟩

theorem Requester.Suits.rebase {step : StepState} {r : Requester} (h : r.Suits step) (old new : Tick) :
    Requester.Suits step { r with phase := r.phase.rebase old new } := by
  have hnone : r.phase.rebase old new = .none ↔ r.phase = .none := by
    cases r.phase <;> simp [RequesterPhase.rebase]
  by_cases hr : r.phase = .none
  · have hidle := h.idle hr
    rw [hidle] at h ⊢; exact h
  · exact h.inPhase hr (mt hnone.mp hr) fun hc => by rwa [RequesterPhase.collecting_rebase]

theorem Responder.idle_suits (step : StepState) : Responder.idle.Suits step := ⟨fun _ => rfl, fun _ => rfl, rfl⟩

theorem Responder.Suits.rebase {step : StepState} {r : Responder} (h : r.Suits step) (old new : Tick) :
    Responder.Suits step { r with phase := r.phase.rebase old new } := by
  refine ⟨fun hs => ?_, fun hi => h.latch ?_, ?_⟩
  · rw [h.context hs]; rfl
  · cases hp : r.phase <;> simp [hp, ResponderPhase.rebase] at hi ⊢
  · have := h.counts
    cases hp : r.phase <;> simp [hp, ResponderPhase.rebase, ResponderPhase.countsOk] at this ⊢
    exact this

/-- A responder with a context serves an IN_STEP station. -/
theorem Responder.Suits.inStep {step : StepState} {r : Responder} (h : r.Suits step) (hp : r.phase ≠ .idle) :
    step = .inStep := by
  by_contra hne
  exact hp (congrArg Responder.phase (h.context hne))

/-- Any context that is in bounds fits an IN_STEP station. -/
theorem Responder.suits_inStep {r : Responder} (hl : r.phase = .idle → r.latch = none)
    (hc : r.phase.countsOk = true) : r.Suits .inStep :=
  ⟨fun hne => absurd rfl hne, hl, hc⟩

theorem StreakSuits.zero {step : StepState} {v : Nat} (h : 0 < v) : StreakSuits step v 0 :=
  ⟨fun _ => by simpa using h, fun _ => rfl⟩

/-- An emptied streak fits wherever one did. -/
theorem StreakSuits.emptied {step : StepState} {v : Nat} {x : AddrSet} (h : StreakSuits step v x) :
    StreakSuits step v 0 :=
  ⟨fun hs => by have := h.below hs; simp; omega, fun _ => rfl⟩

theorem StreakSuits.dropped {step : StepState} {v : Nat} {x : AddrSet} (p : Addr → Bool)
    (h : StreakSuits step v x) : StreakSuits step v (dropAddrs p x) :=
  ⟨fun hs => (addrCount_dropAddrs_le p x).trans_lt (h.below hs),
    fun hs => by rw [h.empty hs]; exact dropAddrs_zero p⟩

/-! ### The law in two parts -/

/-- What ties reset, parameters, tick and a pending restart to the step state (R73, R135, R137, R146). -/
structure State.Grounded (s : State) : Prop where
  reset : s.inReset = true → s.stepState = .unconfigured
  params : s.stepState ≠ .unconfigured → s.params.inRange = true
  tick : s.stepState = .unconfigured → s.tick = 0
  restart : s.port.commit = .restart → s.stepState ≠ .unconfigured

/-- What the listening end, the contexts, the streak and the line are in the step state (R49, R92, R106, R110,
R125, R140). -/
structure State.Settled (s : State) : Prop where
  listening : s.listeningEnd.isSome = true ↔ s.stepState = .listening
  requester : s.requester.Suits s.stepState
  responder : s.responder.Suits s.stepState
  streak : StreakSuits s.stepState s.params.v.toNat s.streak
  line : s.tx.onLine.isSome = true → s.transmits = true

theorem State.phaseLaw_iff (s : State) : s.PhaseLaw ↔ s.Grounded ∧ s.Settled := by
  have hconf : s.configured = true ↔ s.stepState ≠ .unconfigured := by simp [State.configured]
  have happ := s.applies_iff
  have hnot : s.applies = false ↔ ¬(s.stepState = .inStep ∨ s.stepState = .mute) := by rw [← happ]; simp
  constructor
  · rintro ⟨h1, h2, h3, h4, h5, h6, h7, h8, h9, h10, h11, h12, h13, h14, h15, h16⟩
    exact ⟨⟨h1, fun h => h2 (hconf.mpr h), h3, fun h => hconf.mp (h16 h)⟩, h4, ⟨h5, h6, h7, h8, h9⟩,
      ⟨h10, h11, h12⟩, ⟨fun h => h13 (happ.mpr h), fun h => h14 (hnot.mpr h)⟩, h15⟩
  · rintro ⟨⟨h1, h2, h3, h16⟩, h4, ⟨h5, h6, h7, h8, h9⟩, ⟨h10, h11, h12⟩, ⟨h13, h14⟩, h15⟩
    exact ⟨h1, fun h => h2 (hconf.mp h), h3, h4, h5, h6, h7, h8, h9, h10, h11, h12,
      fun h => h13 (happ.mp h), fun h => h14 (hnot.mp h), h15, fun h => hconf.mpr (h16 h)⟩

theorem State.PhaseLaw.grounded {s : State} (h : s.PhaseLaw) : s.Grounded := (s.phaseLaw_iff.mp h).1
theorem State.PhaseLaw.settled {s : State} (h : s.PhaseLaw) : s.Settled := (s.phaseLaw_iff.mp h).2

/-- V is at least 1 at a configured station (R137). -/
theorem State.Grounded.threshold {s : State} (h : s.Grounded) (hc : s.stepState ≠ .unconfigured) :
    0 < s.params.v.toNat := by
  have hrange := h.params hc
  simp only [Params.inRange, Bool.and_eq_true, decide_eq_true_eq] at hrange
  omega

/-- A configured station stays grounded in every other step state but UNCONFIGURED. -/
theorem State.Grounded.configured {s t : State} (h : s.Grounded) (hc : s.stepState ≠ .unconfigured)
    (hr : t.inReset = s.inReset) (hp : t.params = s.params) (ht : t.stepState ≠ .unconfigured) : t.Grounded :=
  ⟨fun hi => absurd (h.reset (hr ▸ hi)) hc, fun _ => by rw [hp]; exact h.params hc, fun hu => absurd hu ht,
    fun _ => ht⟩

/-- A station without a responder context and with an empty streak. -/
theorem State.settled_of_idle {t : State} (hl : t.listeningEnd.isSome = true ↔ t.stepState = .listening)
    (hreq : t.requester.Suits t.stepState) (hresp : t.responder = Responder.idle) (hs : t.streak = 0)
    (hv : 0 < t.params.v.toNat) (hline : t.tx.onLine.isSome = true → t.transmits = true) : t.Settled :=
  ⟨hl, hreq, by rw [hresp]; exact Responder.idle_suits _, by rw [hs]; exact StreakSuits.zero hv, hline⟩

/-! ### Operations that keep the step state -/

/-- The step state stays, and all that the phase law speaks of stays or goes on fitting it. -/
structure State.PhaseKept (s t : State) : Prop where
  inReset : t.inReset = true → s.inReset = true
  stepState : t.stepState = s.stepState
  params : t.params = s.params
  tick : s.stepState = .unconfigured → t.tick = s.tick
  restart : t.port.commit = .restart → s.port.commit = .restart ∨ s.stepState ≠ .unconfigured
  listening : t.listeningEnd.isSome = s.listeningEnd.isSome
  requester : s.requester.Suits s.stepState → t.requester.Suits s.stepState
  responder : s.responder.Suits s.stepState → t.responder.Suits s.stepState
  streak : StreakSuits s.stepState s.params.v.toNat s.streak → StreakSuits s.stepState s.params.v.toNat t.streak
  line : t.tx.onLine.isSome = true → s.tx.onLine.isSome = true

theorem State.PhaseKept.refl (s : State) : s.PhaseKept s :=
  ⟨id, rfl, rfl, fun _ => rfl, .inl, rfl, id, id, id, id⟩

/-- All that the phase law reads of a station. -/
def State.phaseParts (s : State) :
    Bool × StepState × Params × Tick × Commit × Option Tick × Requester × Responder × AddrSet
      × Option Frame :=
  (s.inReset, s.stepState, s.params, s.tick, s.port.commit, s.listeningEnd, s.requester, s.responder, s.streak,
    s.tx.onLine)

theorem State.PhaseKept.of_parts {s t : State} (h : t.phaseParts = s.phaseParts) : s.PhaseKept t := by
  simp only [State.phaseParts, Prod.mk.injEq] at h
  obtain ⟨h1, h2, h3, h4, h5, h6, h7, h8, h9, h10⟩ := h
  exact ⟨by simp [h1], h2, h3, fun _ => h4, fun hr => .inl (h5 ▸ hr), by rw [h6], by simp [h7], by simp [h8],
    by simp [h9], by simp [h10]⟩

theorem State.PhaseKept.trans {s t u : State} (h : s.PhaseKept t) (g : t.PhaseKept u) : s.PhaseKept u := by
  obtain ⟨g1, g2, g3, g4, g5, g6, g7, g8, g9, g10⟩ := g
  rw [h.stepState] at g4 g5 g7 g8 g9
  rw [h.params] at g9
  exact ⟨fun hi => h.inReset (g1 hi), g2.trans h.stepState, g3.trans h.params,
    fun hu => (g4 hu).trans (h.tick hu), fun hr => (g5 hr).elim h.restart .inr, g6.trans h.listening,
    fun hr => g7 (h.requester hr), fun hr => g8 (h.responder hr), fun hr => g9 (h.streak hr),
    fun hr => h.line (g10 hr)⟩

theorem State.PhaseKept.phaseLaw {s t : State} (h : s.PhaseKept t) (hs : s.PhaseLaw) : t.PhaseLaw := by
  obtain ⟨hg, hd⟩ := s.phaseLaw_iff.mp hs
  refine t.phaseLaw_iff.mpr ⟨⟨?_, ?_, ?_, ?_⟩, ?_, ?_, ?_, ?_, ?_⟩
  · rw [h.stepState]; exact fun hi => hg.reset (h.inReset hi)
  · rw [h.stepState, h.params]; exact hg.params
  · rw [h.stepState]; exact fun hu => (h.tick hu).trans (hg.tick hu)
  · rw [h.stepState]; exact fun hr => (h.restart hr).elim hg.restart id
  · rw [h.stepState, h.listening]; exact hd.listening
  · rw [h.stepState]; exact h.requester hd.requester
  · rw [h.stepState]; exact h.responder hd.responder
  · rw [h.stepState, h.params]; exact h.streak hd.streak
  · have htr : t.transmits = s.transmits := by simp [State.transmits, h.stepState]
    rw [htr]; exact fun hl => hd.line (h.line hl)

end Sys2Proof.Machine

/-! The phase law through the operations of the station: acceptances, the requester and the responder, failures,
transmissions and ticks (O3). -/

namespace Sys2Proof.Machine

/-! ### Entries into another step state -/

/-- The entry into OUT_OF_STEP from a configured station that no longer listens (R93, R94). -/
theorem State.enterOutOfStep_phaseLaw {s : State} (hg : s.Grounded) (hc : s.stepState ≠ .unconfigured)
    (hl : s.listeningEnd = none) : s.enterOutOfStep.PhaseLaw := by
  obtain ⟨hrequester, hresponder, -⟩ := s.enterOutOfStep_contexts
  obtain ⟨-, -, -, -, hstreak, hstep, -⟩ := s.enterOutOfStep_facts
  refine (State.phaseLaw_iff _).mpr ⟨hg.configured hc (by simp) (by simp) (by simp [hstep]), ?_⟩
  refine State.settled_of_idle (by simp [hl, hstep]) ?_ hresponder hstreak (by simpa using hg.threshold hc)
    (fun _ => by simp [State.transmits, hstep])
  rw [hstep, hrequester]
  exact Requester.suits_of_empty (by simp) (Nat.zero_le _) rfl

/-- A station without contexts and with an empty streak comes into IN_STEP (R31, R143). -/
theorem State.computeDues_phaseLaw {s t : State} (hg : s.Grounded) (hc : s.stepState ≠ .unconfigured)
    (hr : t.inReset = s.inReset) (hp : t.params = s.params) (hi : t.stepState = .inStep)
    (hl : t.listeningEnd = none) (hreq : t.requester = Requester.idle) (hresp : t.responder = Responder.idle)
    (hs : t.streak = 0) : t.computeDues.PhaseLaw := by
  refine (State.phaseLaw_iff _).mpr
    ⟨hg.configured hc (by simpa using hr) (by simpa using hp) (by simp [hi]), ?_⟩
  refine State.settled_of_idle (by simp [hl, hi]) ?_ (by simpa using hresp) (by simpa using hs)
    (by simpa [hp] using hg.threshold hc) (fun _ => by simp [State.transmits, hi])
  simpa [hi, hreq] using Requester.idle_suits (step := .inStep) (by decide)

/-- What an OUT_OF_STEP station holds beside its requester (R92, R125, R140). -/
structure State.OutOfStepParts (s : State) : Prop where
  responder : s.responder = Responder.idle
  streak : s.streak = 0
  listening : s.listeningEnd = none
  configured : s.stepState ≠ .unconfigured

theorem State.PhaseLaw.outOfStep {s : State} (h : s.PhaseLaw) (ho : s.stepState = .outOfStep) :
    s.OutOfStepParts := by
  have hd := h.settled
  refine ⟨hd.responder.context (by simp [ho]), hd.streak.empty (by simp [ho]), ?_, by simp [ho]⟩
  by_contra hl
  have := hd.listening.mp (Option.isSome_iff_ne_none.mpr hl)
  rw [ho] at this; cases this

/-! ### The requester (R107 to R124) -/

theorem unansweredAfter_le (k : FailKind) (n : Nat) : unansweredAfter k n ≤ Config.maxUnanswered := by
  unfold unansweredAfter
  split
  · exact Nat.min_le_left _ _
  · exact Nat.zero_le _

/-- The station goes on OUT_OF_STEP with its requester in some phase and nothing held. -/
theorem State.PhaseKept.of_requester {s t : State} (ho : s.stepState = .outOfStep)
    (hr : t.inReset = s.inReset) (hi : t.stepState = s.stepState) (hp : t.params = s.params)
    (ht : t.tick = s.tick) (hc : t.port.commit = s.port.commit) (hl : t.listeningEnd = s.listeningEnd)
    (hresp : t.responder = s.responder) (hs : t.streak = s.streak) (hline : t.tx.onLine = s.tx.onLine)
    (hq : t.requester.Suits .outOfStep) : s.PhaseKept t :=
  ⟨by simp [hr], hi, hp, fun _ => ht, fun h => .inl (hc ▸ h), by rw [hl], fun _ => ho ▸ hq, by simp [hresp],
    by simp [hs], by simp [hline]⟩

/-- The next attempt of a requester in a phase holds no frame (R107, R123). -/
theorem State.nextAttempt_phaseLaw {s : State} (hs : s.PhaseLaw) (hp : s.requester.phase ≠ .none)
    (hh : s.requester.hold = []) : s.nextAttempt.PhaseLaw := by
  have hd := hs.settled.requester
  refine State.PhaseKept.phaseLaw (State.PhaseKept.of_requester (hd.phase.mp hp) ?_ ?_ ?_ ?_ ?_ ?_ ?_ ?_ ?_ ?_) hs
  iterate 9 (simp)
  rw [State.nextAttempt_requester]
  exact Requester.suits_of_empty (by simp) hd.unanswered hh

/-- A failure at an OUT_OF_STEP station: it asks again, waits, or returns into step with its own table (R122 to
R124). -/
theorem State.fail_phaseLaw {s : State} (k : FailKind) (hs : s.PhaseLaw) (ho : s.stepState = .outOfStep) :
    (s.fail k).PhaseLaw := by
  obtain ⟨hnext, hassert, hwait⟩ := s.fail_cases k
  have hle := unansweredAfter_le k s.requester.unanswered
  generalize unansweredAfter k s.requester.unanswered = n at *
  have hfailed : ∀ p, p ≠ .none →
      State.PhaseLaw { s.failed n with requester := { s.requester with phase := p, unanswered := n, hold := [] } } :=
    fun p hp => by
      refine State.PhaseKept.phaseLaw ?_ hs
      exact State.PhaseKept.of_requester ho rfl rfl rfl rfl rfl rfl rfl rfl rfl (Requester.suits_of_empty hp hle rfl)
  by_cases hlt : n < 4
  · rw [hnext hlt]
    exact State.nextAttempt_phaseLaw (hfailed (.requesting none) (by simp)) (by simp [State.failed]) rfl
  · cases ha : s.selfAsserts with
    | false => rw [hwait (not_lt.mp hlt) ha]; exact hfailed (.retryWait _) (by simp)
    | true =>
      rw [hassert (not_lt.mp hlt) ha]
      obtain ⟨hresp, hstreak, hl, hc⟩ := hs.outOfStep ho
      exact State.computeDues_phaseLaw hs.grounded hc rfl rfl rfl hl rfl hresp hstreak

theorem State.holdFrame_phaseLaw {s : State} (a : Addr) (body : Sequenced) (n : Half) (hs : s.PhaseLaw)
    (ho : s.stepState = .outOfStep) : (s.holdFrame a body n).PhaseLaw := by
  unfold State.holdFrame
  split
  next hc =>
    split
    next hroom =>
      have hd := hs.settled.requester
      rw [ho] at hd
      refine State.PhaseKept.phaseLaw ?_ hs
      refine State.PhaseKept.of_requester ho rfl rfl rfl rfl rfl rfl rfl rfl rfl ?_
      refine ⟨hd.phase, fun hn => ?_, hd.unanswered, ?_, fun _ => hc⟩
      · exact absurd hn (hd.phase.mpr rfl)
      · simpa using hroom
    next => exact State.fail_phaseLaw _ hs ho
  next => exact hs

/-- The install brings the station into step, or fails at a gap (R118 to R121). -/
theorem State.install_phaseLaw {s : State} (h : SnapHeader) (records : List EventRecord) (hs : s.PhaseLaw)
    (ho : s.stepState = .outOfStep) : (s.install h records).PhaseLaw := by
  unfold State.install
  split
  next => exact State.fail_phaseLaw _ hs ho
  next marked _ =>
    obtain ⟨hresp, hstreak, hl, hc⟩ := hs.outOfStep ho
    exact State.computeDues_phaseLaw hs.grounded hc (by simp) (by simp) rfl (by simpa using hl) rfl
      (by simpa using hresp) (by simpa using hstreak)

theorem State.setTick_kept (new : Tick) {s : State} (hc : s.stepState ≠ .unconfigured) :
    s.PhaseKept (s.setTick new) :=
  ⟨id, rfl, rfl, fun hu => absurd hu hc, .inl, by simp, fun h => h.rebase _ _, fun h => h.rebase _ _, id, id⟩

/-- A header taken: RECEIVING, the held frames going on being collected (R110, R114). -/
theorem State.takeHeader_phaseLaw {s : State} (a : Addr) (total : Nat) (h : SnapHeader) (tick : Tick)
    (hs : s.PhaseLaw) (ho : s.stepState = .outOfStep) : (s.takeHeader a total h tick).PhaseLaw := by
  have hd := hs.settled.requester
  have hreq : (s.takeHeader a total h tick).requester.Suits .outOfStep :=
    ⟨by simp [State.takeHeader], fun hn => RequesterPhase.noConfusion hn, Nat.zero_le _, hd.room, fun _ => rfl⟩
  have hset := State.setTick_kept (tickPlus tick 1) (s := s) (by simp [ho])
  refine State.PhaseKept.phaseLaw ?_ (hset.phaseLaw hs)
  exact State.PhaseKept.of_requester (s := s.setTick (tickPlus tick 1)) ho rfl rfl rfl rfl rfl rfl rfl rfl rfl hreq

theorem State.enterConflict_phaseLaw {s : State} (hs : s.PhaseLaw) (ho : s.stepState = .outOfStep)
    (hline : s.tx.onLine = none) : s.enterConflict.PhaseLaw := by
  obtain ⟨hresp, hstreak, hl, hc⟩ := hs.outOfStep ho
  refine (State.phaseLaw_iff _).mpr
    ⟨hs.grounded.configured hc (by simp) (by simp) (by simp [State.enterConflict]), ?_⟩
  refine State.settled_of_idle (by simp [State.enterConflict, hl])
    (Requester.idle_suits (by simp [State.enterConflict])) (by simpa using hresp)
    (by simpa using hstreak) (by simpa using hs.grounded.threshold hc) (by simp [hline])

/-- The header of a snapshot: taken, installed at once, refused, or another array's (R113, R114, R132). -/
theorem State.examineHeader_phaseLaw {s : State} (a : Addr) (n : Nat) (b : StateBody) (hs : s.PhaseLaw)
    (ho : s.stepState = .outOfStep) (hline : s.tx.onLine = none) : (s.examineHeader a n b).PhaseLaw := by
  unfold State.examineHeader
  split
  next => exact State.enterConflict_phaseLaw hs ho hline
  next =>
  split
  next => exact State.fail_phaseLaw _ hs ho
  next h tick _ =>
  split
  next =>
    have htaken := State.takeHeader_phaseLaw a b.total.toNat h tick hs ho
    dsimp only
    split
    · exact State.install_phaseLaw _ _ htaken (by simpa using ho)
    · exact htaken
  next => exact State.fail_phaseLaw _ hs ho

/-- A record chunk: taken, the last one of a snapshot that is installed, or refused (R116, R117). -/
theorem State.takeChunk_phaseLaw {s : State} {c : Receiving} (n : Nat) (b : StateBody) (hs : s.PhaseLaw)
    (ho : s.stepState = .outOfStep) (hp : s.requester.phase = .receiving c) : (s.takeChunk c n b).PhaseLaw := by
  have hfail := State.fail_phaseLaw .badChunk hs ho
  have hgoes : ∀ c', State.PhaseLaw { s with requester := { s.requester with phase := .receiving c' } } :=
    fun c' => by
      refine State.PhaseKept.phaseLaw ?_ hs
      exact State.PhaseKept.of_requester ho rfl rfl rfl rfl rfl rfl rfl rfl rfl
        (ho ▸ hs.settled.requester.inPhase (by simp [hp]) (by simp) fun _ => rfl)
  unfold State.takeChunk
  dsimp only
  (repeat' split)
  iterate 4 (exact hfail)
  · exact State.install_phaseLaw _ _ hs ho
  · exact hgoes _

theorem State.requesterState_phaseLaw {s : State} (a : Addr) (n : Nat) (b : StateBody) (hs : s.PhaseLaw)
    (ho : s.stepState = .outOfStep) (hline : s.tx.onLine = none) : (s.requesterState a n b).PhaseLaw := by
  unfold State.requesterState
  split
  next => exact hs
  next =>
  split
  next => split <;> [exact State.examineHeader_phaseLaw a n b hs ho hline; exact hs]
  next c hp => split <;> [exact State.takeChunk_phaseLaw n b hs ho hp; exact hs]
  next => exact hs

theorem State.requestSent_kept_phase (s : State) : s.PhaseKept s.requestSent := by
  refine ⟨by simp, by simp, by simp, by simp, by simpa using .inl, by simp, fun h => ?_, by simp, by simp,
    by simp⟩
  unfold State.requestSent
  split
  next hp =>
    have hstep := h.phase.mp (by simp [hp])
    rw [hstep]
    exact Requester.suits_of_empty (by simp) h.unanswered rfl
  next => exact h

/-! ### The responder (R126 to R131) -/

theorem State.takeLatch_suits {s : State} : s.takeLatch.responder.Suits .inStep := by
  unfold State.takeLatch
  cases s.responder.latch with
  | none => exact Responder.idle_suits _
  | some a => exact Responder.suits_inStep (by simp) rfl

/-- All but the responder is as the phase law left it, and the responder fits. -/
theorem State.PhaseKept.of_responder {s t : State} (hr : t.inReset = s.inReset) (hi : t.stepState = s.stepState)
    (hp : t.params = s.params) (ht : t.tick = s.tick) (hc : t.port.commit = s.port.commit)
    (hl : t.listeningEnd = s.listeningEnd) (hreq : t.requester = s.requester) (hs : t.streak = s.streak)
    (hline : t.tx.onLine = s.tx.onLine)
    (hq : s.responder.Suits s.stepState → t.responder.Suits s.stepState) : s.PhaseKept t :=
  ⟨by simp [hr], hi, hp, fun _ => ht, fun h => .inl (hc ▸ h), by rw [hl], by simp [hreq], hq, by simp [hs],
    by simp [hline]⟩

theorem State.chunkDiscarded_kept_phase (s : State) : s.PhaseKept s.chunkDiscarded := by
  refine State.PhaseKept.of_responder ?_ ?_ ?_ ?_ ?_ ?_ ?_ ?_ ?_ fun h => ?_
  iterate 9 (simp)
  unfold State.chunkDiscarded
  split
  next hp => rw [h.inStep (by simp [hp])]; exact State.takeLatch_suits
  next => exact h

theorem State.chunkSent_kept_phase (s : State) : s.PhaseKept s.chunkSent := by
  refine State.PhaseKept.of_responder ?_ ?_ ?_ ?_ ?_ ?_ ?_ ?_ ?_ fun h => ?_
  iterate 9 (simp)
  unfold State.chunkSent
  split
  next t b total next sent hp =>
    have hcounts := h.counts
    rw [h.inStep (by simp [hp])]
    simp only [hp, ResponderPhase.countsOk, Bool.and_eq_true, beq_iff_eq, decide_eq_true_eq] at hcounts
    split
    next hmore =>
      refine Responder.suits_inStep (by simp [State.offer]) ?_
      simp [State.offer, ResponderPhase.countsOk, hcounts.1, hcounts.1 ▸ hmore]
    next => exact State.takeLatch_suits
  next => exact h

theorem State.beginService_kept_phase {s : State} (target : Addr) (hi : s.stepState = .inStep) :
    s.PhaseKept (s.beginService target) := by
  refine State.PhaseKept.of_responder ?_ ?_ ?_ ?_ ?_ ?_ ?_ ?_ ?_ fun h => ?_
  iterate 9 (simp)
  rw [hi]
  exact Responder.suits_inStep (by simp [State.beginService]) (by simp [State.beginService, ResponderPhase.countsOk])

theorem State.requestHeard_kept_phase {s : State} (a : Addr) (hi : s.stepState = .inStep) :
    s.PhaseKept (s.requestHeard a) := by
  refine State.PhaseKept.of_responder ?_ ?_ ?_ ?_ ?_ ?_ ?_ ?_ ?_ fun h => ?_
  iterate 9 (simp)
  rw [hi] at h ⊢
  unfold State.requestHeard
  split
  next => exact h
  next =>
  dsimp only
  split
  next hp => exact Responder.suits_inStep (by simp) rfl
  all_goals
    rename_i hp
    split
    · exact Responder.suits_inStep (by simp [hp]) h.counts
    · exact h

theorem State.headerHeard_kept_phase {s : State} (target : Addr) (hi : s.stepState = .inStep) :
    s.PhaseKept (s.headerHeard target) := by
  refine State.PhaseKept.of_responder ?_ ?_ ?_ ?_ ?_ ?_ ?_ ?_ ?_ fun h => ?_
  iterate 9 (simp)
  rw [hi] at h ⊢
  have hemptied : Responder.Suits .inStep { s.responder with latch := none } :=
    Responder.suits_inStep (fun _ => rfl) h.counts
  have hkept : Responder.Suits .inStep (if s.responder.latch = some target then
      { s with responder := { s.responder with latch := none } } else s).responder := by
    split
    next => exact hemptied
    next => exact h
  unfold State.headerHeard
  dsimp only
  split
  next =>
    split
    next => exact State.takeLatch_suits
    next => exact hkept
  next =>
    split
    next => exact State.takeLatch_suits
    next => exact hkept
  next => exact hkept

theorem State.responderState_kept_phase {s : State} (b : StateBody) (hi : s.stepState = .inStep) :
    s.PhaseKept (s.responderState b) := by
  unfold State.responderState
  (repeat' split) <;> [exact State.headerHeard_kept_phase _ hi; exact .refl s; exact .refl s]

end Sys2Proof.Machine

/-! The phase law through acceptances, transmissions and ticks (O3). -/

namespace Sys2Proof.Machine

/-! ### Ordered frames -/

theorem State.applyFrame_kept_phase (a : Addr) (body : Sequenced) (s : State) :
    s.PhaseKept (s.applyFrame a body) := by
  constructor <;> simp +contextual

/-- A CLEAR ends the responder's service and empties the streak (R40, R131). -/
theorem State.applyClear_kept_phase (s : State) : s.PhaseKept s.applyClear := by
  have hresp : s.applyClear.responder = Responder.idle := s.applyClear_responder
  have hstreak : s.applyClear.streak = 0 := by simp [State.applyClear]
  constructor
  case responder => exact fun _ => by rw [hresp]; exact Responder.idle_suits _
  case streak => exact fun h => by rw [hstreak]; exact h.emptied
  all_goals simp +contextual

/-- A CLEAR out of step brings the station back with an empty table (R41). -/
theorem State.clearOutOfStep_phaseLaw {s : State} (tick : Tick) (epoch : Byte) (hs : s.PhaseLaw)
    (ho : s.stepState = .outOfStep) : (s.clearOutOfStep tick epoch).PhaseLaw := by
  obtain ⟨-, -, hl, hc⟩ := hs.outOfStep ho
  refine State.computeDues_phaseLaw hs.grounded hc (by simp) (by simp) rfl (by simpa using hl) ?_ ?_ ?_
  · simp [State.setTick, Requester.idle, RequesterPhase.rebase]
  · simp [State.setTick, State.applyClear_responder, Responder.idle, ResponderPhase.rebase]
  · simp [State.applyClear]

theorem State.epochArrival_kept_phase (s : State) : s.PhaseKept s.epochArrival := by
  unfold State.epochArrival
  split
  next hc =>
    refine (State.setTick_kept 0 (by simpa [State.configured] using hc)).trans ?_
    constructor <;> simp +contextual
  next => exact .refl s

/-! ### Acceptances -/

theorem State.arrive_kept_phase (h : Header) (carried : Option Half) (epoch : Bool) (s : State) :
    s.PhaseKept (s.arrive h carried epoch) := by
  have hclash : s.PhaseKept (s.receiverDone.setFlagIf (h.sender == s.addr) .addressClash) := by
    constructor <;> simp +contextual [State.receiverDone, State.lineBusy]
  have hrecord : ∀ m : State, m.PhaseKept (m.record h carried) := fun m => by constructor <;> simp +contextual
  unfold State.arrive
  refine State.PhaseKept.trans ?_ (hrecord _)
  split
  · exact hclash.trans (State.epochArrival_kept_phase _)
  · exact hclash

/-- A vote leaves a fitting streak, or takes the station out of step (R88 to R93, R96). -/
theorem State.vote_phaseLaw {s : State} (h : Header) (hs : s.PhaseLaw) : (s.vote h).PhaseLaw := by
  rcases State.vote_cases h s with hquiet | ⟨hleaves, hvotes, -, hi, -⟩
  · obtain ⟨-, htick, htx, -, hstep, -, -, hl, hrequester, hresponder, -⟩ := hquiet.frame
    refine State.PhaseKept.phaseLaw ⟨by simp, hstep, by simp, fun _ => htick, by simpa using .inl, by rw [hl],
      by simp [hrequester], by simp [hresponder], fun hstreak => ?_, by simp [htx]⟩ hs
    rw [State.vote_streak]
    split
    next hv =>
      split
      next => exact hstreak.emptied
      next =>
        split
        next hlt =>
          simp only [State.votes, Bool.and_eq_true] at hv
          exact ⟨fun _ => hlt, fun hn => absurd (s.applies_iff.mp hv.1.1) hn⟩
        next => exact hstreak.emptied
    next => exact hstreak
  · rw [hleaves]
    have hl : s.listeningEnd = none := by
      by_contra hsome
      have := hs.settled.listening.mp (Option.isSome_iff_ne_none.mpr hsome)
      rw [hi] at this; cases this
    have hconf : s.stepState ≠ .unconfigured := by simp [hi]
    exact State.enterOutOfStep_phaseLaw (hs.grounded.configured hconf rfl rfl hconf) hconf hl

theorem State.accept_phaseLaw {s : State} (h : Header) (carried : Option Half) (epoch : Bool) (hs : s.PhaseLaw) :
    (s.accept h carried epoch).PhaseLaw := by
  have harrived := (State.arrive_kept_phase h carried epoch s).phaseLaw hs
  unfold State.accept State.monitor
  split
  next hl =>
    have hconf : (s.arrive h carried epoch).stepState ≠ .unconfigured := by rw [hl]; decide
    split
    · exact State.enterOutOfStep_phaseLaw (harrived.grounded.configured hconf rfl rfl hconf) hconf rfl
    · exact harrived
  next => exact State.vote_phaseLaw h harrived

theorem State.ownSequenced_phaseLaw {s : State} (h : Header) (body : Sequenced) (hs : s.PhaseLaw) :
    (s.ownSequenced h body).PhaseLaw := by
  unfold State.ownSequenced
  split
  next => exact (State.applyFrame_kept_phase _ _ s).phaseLaw hs
  next => exact (State.applyFrame_kept_phase _ _ s).phaseLaw hs
  next ho => exact State.holdFrame_phaseLaw _ _ _ hs ho
  all_goals exact hs

theorem State.ownClear_phaseLaw {s : State} (tick : Tick) (epoch : Byte) (hs : s.PhaseLaw) :
    (s.ownClear tick epoch).PhaseLaw := by
  unfold State.ownClear
  split
  next => exact s.applyClear_kept_phase.phaseLaw hs
  next => exact s.applyClear_kept_phase.phaseLaw hs
  next ho => exact State.clearOutOfStep_phaseLaw tick epoch hs ho
  all_goals exact hs

theorem State.ownState_phaseLaw {s : State} (h : Header) (body : List Byte) (hs : s.PhaseLaw)
    (hline : s.tx.onLine = none) : (s.ownState h body).PhaseLaw := by
  unfold State.ownState
  split
  next => exact hs
  next b _ =>
    split
    next ho => exact State.requesterState_phaseLaw _ _ b hs ho hline
    next hi => exact (State.responderState_kept_phase b hi).phaseLaw hs
    all_goals exact hs

theorem State.ownStateReq_phaseLaw {s : State} (h : Header) (hs : s.PhaseLaw) : (s.ownStateReq h).PhaseLaw := by
  unfold State.ownStateReq
  split
  next hi => exact (State.requestHeard_kept_phase _ hi).phaseLaw hs
  next => exact hs

/-! ### Transmissions (R54 to R61) -/

theorem State.start_phaseLaw {s : State} (n : Nat) (hs : s.PhaseLaw) : (s.start n).PhaseLaw := by
  unfold State.start
  split
  next => exact hs
  next e rest _ =>
    split
    next hstart =>
      obtain ⟨hg, hl, hreq, hresp, hstreak, -⟩ := s.phaseLaw_iff.mp hs
      refine (State.phaseLaw_iff _).mpr
        ⟨⟨hg.reset, hg.params, hg.tick, hg.restart⟩, hl, hreq, hresp, hstreak, fun _ => ?_⟩
      simp only [Bool.and_eq_true, State.maySend] at hstart
      obtain ⟨-, hsend⟩ := hstart
      split at hsend
      · change s.transmits = true
        simp [State.transmits, hsend]
      · exact hsend
    next => exact hs

@[simp] theorem State.returnEntry_onLine (e : Entry) (f : Entry → Entry) (s : State) :
    (s.returnEntry e f).tx.onLine = none := by
  unfold State.returnEntry State.recheck
  dsimp only
  (repeat' split) <;> simp

theorem State.returnEntry_kept_phase (e : Entry) (f : Entry → Entry) (s : State) :
    s.PhaseKept (s.returnEntry e f) := by
  constructor <;> simp +contextual

theorem State.loseArbitration_kept_phase (e : Entry) (s : State) : s.PhaseKept (s.loseArbitration e) := by
  constructor
  case line => simp [State.loseArbitration]
  all_goals simp +contextual

theorem State.afterDiscard_kept_phase (k : Kind) (s : State) : s.PhaseKept (s.afterDiscard k) := by
  have hchunk := s.chunkDiscarded_kept_phase
  constructor
  case responder =>
    cases k with
    | state => exact hchunk.responder
    | stateReq => unfold State.afterDiscard; dsimp only; split <;> exact id
    | _ => exact id
  all_goals simp +contextual

/-- MUTE keeps the streak it finds (R60, R96). -/
theorem State.enterMute_phaseLaw {s : State} (hs : s.PhaseLaw) (hc : s.stepState ≠ .unconfigured)
    (hline : s.tx.onLine = none) : s.enterMute.PhaseLaw := by
  have hstep : s.enterMute.stepState = .mute := rfl
  refine (State.phaseLaw_iff _).mpr ⟨hs.grounded.configured hc (by simp) (by simp) (by simp [hstep]),
    by simp [State.enterMute], Requester.idle_suits (by simp [hstep]), Responder.idle_suits _, ?_,
    by simp [State.enterMute, hline]⟩
  have hstreak := hs.settled.streak
  have hv := hs.grounded.threshold hc
  refine ⟨fun _ => ?_, fun hn => absurd (.inr hstep) hn⟩
  by_cases hvoting : s.stepState = .inStep ∨ s.stepState = .mute
  · simpa using hstreak.below hvoting
  · simpa [hstreak.empty hvoting] using hv

theorem State.discard_phaseLaw {s : State} (e : Entry) (hs : s.PhaseLaw) (ht : s.transmits = true) :
    (s.discard e).PhaseLaw := by
  have hdropped : ∀ n, State.PhaseLaw { s.rise .txDiscards 1 with tx := { s.tx.dropSending with discards := n } } :=
    fun n => State.PhaseKept.phaseLaw (s := s)
      ⟨id, rfl, rfl, fun _ => rfl, .inl, rfl, id, id, id, by simp⟩ hs
  have hc : s.stepState ≠ .unconfigured := fun hu => by simp [State.transmits, hu] at ht
  unfold State.discard
  dsimp only
  split
  next => exact State.enterMute_phaseLaw (hdropped _) hc (by simp)
  next => exact (State.afterDiscard_kept_phase _ _).phaseLaw (hdropped _)

theorem State.bitError_phaseLaw {s : State} (e : Entry) (hs : s.PhaseLaw) (ht : s.transmits = true) :
    (s.bitError e).PhaseLaw := by
  have hbroken : s.PhaseKept (s.driveBreak.rise .txAborts 1) := by
    constructor <;> simp +contextual [State.driveBreak, State.lineBusy]
  unfold State.bitError
  dsimp only
  split
  next => exact State.discard_phaseLaw e (hbroken.phaseLaw hs) ht
  next => exact (hbroken.trans (State.returnEntry_kept_phase _ _ _)).phaseLaw hs

theorem State.completed_kept_phase (s : State) : s.PhaseKept s.completed := by
  constructor <;> simp +contextual [State.completed]

/-- The completion of an own ordered frame, `f` being what comes before its application. -/
theorem State.completeSequenced_phaseLaw {s : State} (k : Kind) (f : State → State)
    (hf : ∀ x : State, x.PhaseKept (f x)) (hs : s.PhaseLaw) : (s.completeSequenced k f).PhaseLaw := by
  have hdone := (s.completed_kept_phase.trans (hf _)).phaseLaw hs
  unfold State.completeSequenced
  split
  next =>
    split
    next =>
      unfold State.applyOwn
      split
      · exact (State.applyFrame_kept_phase _ _ _).phaseLaw hdone
      · exact hdone
    next => exact hs
  next => exact hs

/-! ### Ticks (R74) -/

theorem State.markAbsent_kept_phase (s : State) : s.PhaseKept s.markAbsent := by
  constructor
  case streak => exact fun h => h.dropped s.absent
  all_goals simp +contextual

theorem State.testRequest_phaseLaw {s : State} (hs : s.PhaseLaw) : s.testRequest.PhaseLaw := by
  unfold State.testRequest
  split
  next hp =>
    split
    · exact State.fail_phaseLaw _ hs (hs.settled.requester.phase.mp (by simp [hp]))
    · exact hs
  next => exact hs

theorem State.testChunk_phaseLaw {s : State} (hs : s.PhaseLaw) : s.testChunk.PhaseLaw := by
  unfold State.testChunk
  split
  next hp =>
    split
    · exact State.fail_phaseLaw _ hs (hs.settled.requester.phase.mp (by simp [hp]))
    · exact hs
  next => exact hs

theorem State.testRetry_phaseLaw {s : State} (hs : s.PhaseLaw) : s.testRetry.PhaseLaw := by
  unfold State.testRetry
  split
  next hp =>
    have hheld : s.requester.hold = [] := by
      by_contra hne
      have := hs.settled.requester.collecting hne
      simp [Requester.collecting, hp] at this
    split
    · exact State.nextAttempt_phaseLaw hs (by simp [hp]) hheld
    · exact hs
  next => exact hs

theorem State.testDelay_phaseLaw {s : State} (hs : s.PhaseLaw) : s.testDelay.PhaseLaw := by
  unfold State.testDelay
  split
  next hp =>
    have hi := hs.settled.responder.inStep (by simp [hp])
    split
    · exact (State.beginService_kept_phase _ hi).phaseLaw hs
    · exact hs
  next => exact hs

/-- The station founds at its listening end, without contexts (R143). -/
theorem State.testListening_phaseLaw {s : State} (hs : s.PhaseLaw) : s.testListening.PhaseLaw := by
  unfold State.testListening
  split
  next hl =>
    have hstep := hl.1
    have hd := hs.settled
    have hreq : s.requester = Requester.idle := by
      refine hd.requester.idle ?_
      by_contra hne
      have := hd.requester.phase.mp hne
      rw [hstep] at this; cases this
    have hfounded : State.PhaseLaw (State.computeDues
        { s with stepState := .inStep, listeningEnd := none, lastSent := s.tick,
                 table := Table.founding s.fingerprint }) :=
      State.computeDues_phaseLaw hs.grounded (by simp [hstep]) rfl rfl rfl rfl hreq
        (hd.responder.context (by simp [hstep])) (hd.streak.empty (by simp [hstep]))
    unfold State.found
    dsimp only
    split
    · exact hfounded
    · exact State.PhaseKept.phaseLaw (by constructor <;> simp +contextual) hfounded
  next => exact hs

theorem State.offerTick_phaseLaw {s : State} (hs : s.PhaseLaw) : s.offerTick.PhaseLaw := by
  have hdues : s.PhaseKept s.testExpiry.scheduleCloses.offerPresence := by constructor <;> simp +contextual
  have hmarked := (hdues.trans (State.markAbsent_kept_phase _)).phaseLaw hs
  unfold State.offerTick
  exact State.testListening_phaseLaw (State.testDelay_phaseLaw (State.testRetry_phaseLaw
    (State.testChunk_phaseLaw (State.testRequest_phaseLaw hmarked))))

end Sys2Proof.Machine

/-! The phase law through every command (O3). -/

namespace Sys2Proof.Machine

/-! ### The board -/

theorem State.taken_phaseLaw {s : State} (c : Instr) (f : State → State) (hs : s.PhaseLaw)
    (hf : s.takesCommand c = true → (f s).PhaseLaw) : (s.taken c f).PhaseLaw := by
  unfold State.taken
  split
  next ht => exact hf ht
  next => exact hs

/-- A response whose end is no restart keeps the law (R159). -/
theorem State.respond_kept_phase (r : Result) (data : List Byte) {c : Commit} (s : State) (hc : c ≠ .restart) :
    s.PhaseKept (s.respond r data c) :=
  ⟨id, rfl, rfl, fun _ => rfl, fun h => absurd h hc, rfl, id, id, id, id⟩

/-- Nor does one that follows an effect on the board's side alone. -/
theorem State.PhaseKept.respond {s m : State} (h : s.PhaseKept m) (r : Result) (data : List Byte) {c : Commit}
    (hc : c ≠ .restart) : s.PhaseKept (m.respond r data c) :=
  h.trans (m.respond_kept_phase r data hc)

theorem State.setArmed_kept_phase (a : Bool) (s : State) : s.PhaseKept (s.setArmed a) := by
  have harmed : s.PhaseKept { s with armed := a } := .of_parts rfl
  unfold State.setArmed State.answer
  split
  · split
    · exact State.respond_kept_phase _ _ _ (by decide)
    · exact harmed.respond _ _ (by decide)
  · exact State.respond_kept_phase _ _ _ (by decide)

theorem State.takeOrder_kept_phase (s : State) : s.PhaseKept s.takeOrder := by
  have hordered : ∀ q, s.PhaseKept { s with orders := q } := fun _ =>
    .of_parts rfl
  unfold State.takeOrder
  split
  · exact State.respond_kept_phase _ _ _ (by decide)
  · exact (hordered _).respond _ _ (by decide)

theorem State.stageEvent_kept_phase (n : Half) (s : State) : s.PhaseKept (s.stageEvent n) := by
  have hstaged : ∀ x, s.PhaseKept { s with stage := x } := fun _ =>
    .of_parts rfl
  unfold State.stageEvent State.answer
  split
  · exact State.respond_kept_phase _ _ _ (by decide)
  · exact (hstaged _).respond _ _ (by decide)

theorem State.readStage_kept_phase (offset length : Byte) (s : State) :
    s.PhaseKept (s.readStage offset length) := by
  unfold State.readStage State.answer
  (repeat' split) <;> exact State.respond_kept_phase _ _ _ (by decide)

theorem State.readCounters_kept_phase (first n : Byte) (s : State) : s.PhaseKept (s.readCounters first n) := by
  unfold State.readCounters State.answer
  split <;> exact State.respond_kept_phase _ _ _ (by decide)

theorem State.askFrame_kept_phase (b : Body) (s : State) : s.PhaseKept (s.askFrame b) := by
  have hadmitted : s.PhaseKept (s.admitEntry b) := .of_parts rfl
  unfold State.askFrame State.answer
  split
  · exact State.respond_kept_phase _ _ _ (by decide)
  · split
    · exact State.respond_kept_phase _ _ _ (by decide)
    · exact hadmitted.respond _ _ (by decide)

/-- A restart is left pending at a configured station alone (R146). -/
theorem State.askRestart_kept_phase (s : State) : s.PhaseKept s.askRestart := by
  have hpending : s.stepState ≠ .unconfigured → s.PhaseKept (s.respond .ok [] .restart) := fun hc =>
    ⟨id, rfl, rfl, fun _ => rfl, fun _ => .inr hc, rfl, id, id, id, id⟩
  unfold State.askRestart State.answer
  split
  next => exact State.respond_kept_phase _ _ _ (by decide)
  next => exact State.respond_kept_phase _ _ _ (by decide)
  all_goals next hi => exact hpending (by simp [hi])

theorem State.trail_kept_phase (s : State) : s.PhaseKept s.trail := by
  have hcommit : s.trail.port.commit = .nothing := rfl
  constructor
  case restart => rw [hcommit]; exact fun h => Commit.noConfusion h
  all_goals simp +contextual

theorem State.commitFlags_kept_phase (s : State) : s.PhaseKept s.commitFlags := by
  unfold State.commitFlags
  split
  next mask copy _ =>
    refine State.PhaseKept.trans ?_ (State.trail_kept_phase (s.clearFlags mask copy))
    exact .of_parts rfl
  all_goals exact .refl s

theorem State.openTransaction_kept_phase (bytes : List Byte) (s : State) :
    s.PhaseKept (s.openTransaction bytes) := by
  have hcommit : (s.openTransaction bytes).port.commit = s.port.commit
      ∨ (s.openTransaction bytes).port.commit = .nothing := by
    unfold State.openTransaction
    split
    · exact .inr (by simp [Port.reset])
    · exact .inl rfl
  constructor
  case restart => exact fun h => hcommit.elim (fun hs => .inl (hs ▸ h)) fun hn => absurd (hn ▸ h) (by decide)
  all_goals simp +contextual

theorem State.endTransaction_kept_phase (s : State) : s.PhaseKept s.endTransaction := by
  unfold State.endTransaction
  split
  · exact .of_parts rfl
  · exact ⟨id, rfl, rfl, fun _ => rfl, fun h => Commit.noConfusion h, rfl, id, id, id, id⟩

/-- An accepted SET_CONFIG, with parameters in range, finds no context and no frame on the line (R137, R138). -/
theorem State.configure_phaseLaw {s : State} (p : Params) (hs : s.PhaseLaw) (hr : s.inReset = false)
    (hun : s.stepState = .unconfigured) (hp : p.inRange = true) : (s.configure p).PhaseLaw := by
  have hd := hs.settled
  have hreq : s.requester = Requester.idle := by
    refine hd.requester.idle ?_
    by_contra hne
    have := hd.requester.phase.mp hne
    rw [hun] at this; cases this
  have hline : s.tx.onLine.isSome = false := by
    rw [← Bool.not_eq_true]
    intro hl
    simpa [State.transmits, hun] using hd.line hl
  have hg : (s.configure p).Grounded :=
    ⟨fun hi => by rw [State.configure] at hi; simp [hr] at hi, fun _ => hp, fun h => StepState.noConfusion h,
      fun _ => StepState.noConfusion⟩
  refine (State.phaseLaw_iff _).mpr ⟨hg, ?_⟩
  refine State.settled_of_idle (by simp [State.configure]) ?_
    (by simpa using hd.responder.context (by simp [hun])) (by simp [State.configure])
    (hg.threshold (by simp [State.configure])) (by simp [hline])
  simpa [hreq] using Requester.idle_suits (by simp [State.configure])

/-- The restart takes everything but the configuration back to a listening station's (R147). -/
theorem State.restart_phaseLaw {s : State} (hs : s.PhaseLaw) (hc : s.stepState ≠ .unconfigured) :
    s.restart.PhaseLaw := by
  have hg : s.restart.Grounded := hs.grounded.configured hc rfl rfl (by simp [State.restart])
  refine (State.phaseLaw_iff _).mpr ⟨hg, ?_⟩
  exact State.settled_of_idle (by simp [State.restart]) (Requester.idle_suits (by simp [State.restart])) rfl rfl
    (hg.threshold (by simp [State.restart])) (by simp [State.restart, Transmitter.restarted, Transmitter.reset])

/-! ### Every command -/

theorem State.PhaseLaw.ite {c : Prop} [Decidable c] {s t : State} (ht : c → t.PhaseLaw) (hs : s.PhaseLaw) :
    (if c then t else s).PhaseLaw := by
  split
  · exact ht ‹c›
  · exact hs

theorem State.unlessReset_phaseLaw {s : State} {f : State → State} (hf : (f s).PhaseLaw) (hs : s.PhaseLaw) :
    (s.unlessReset f).PhaseLaw := by
  unfold State.unlessReset
  split
  · exact hs
  · exact hf

/-- A frame of the station's own on the line is sent by a station that transmits (R55). -/
theorem State.PhaseLaw.onLine_transmits {s : State} (h : s.PhaseLaw) (ho : s.onLine = true) :
    s.transmits = true := by
  simp only [State.onLine, Bool.and_eq_true] at ho
  exact h.settled.line ho.2

/-- Every command keeps the law of the contexts. -/
theorem exec_phaseLaw (c : Instr) {s t : State} (hs : s.PhaseLaw) (h : exec c s = .next t) : t.PhaseLaw := by
  have htaken : ∀ f : State → State, s.PhaseKept (f s) → (s.taken c f).PhaseLaw :=
    fun f hf => State.taken_phaseLaw c f hs fun _ => hf.phaseLaw hs
  have hresponds : ∀ (r : Result) (data : List Byte) (k : Commit), k ≠ .restart →
      s.PhaseKept (s.respond r data k) := fun r data _ hk => State.respond_kept_phase r data s hk
  have haccept : ∀ (h' : Header) (carried : Option Half) (epoch : Bool), (s.accept h' carried epoch).PhaseLaw :=
    fun h' carried epoch => State.accept_phaseLaw h' carried epoch hs
  cases c with
  | pinReset => cases h; exact resetStateIsLawful.1
  | resetRelease addr rate =>
    cases h
    exact State.PhaseLaw.ite (fun _ => State.PhaseKept.phaseLaw (s := s)
      ⟨fun hi => Bool.noConfusion hi, rfl, rfl, fun _ => rfl, .inl, rfl, id, id, id, id⟩ hs) hs
  | refArrival =>
    cases h
    refine State.unlessReset_phaseLaw (State.PhaseLaw.ite (fun hc => State.offerTick_phaseLaw ?_) hs) hs
    refine State.PhaseKept.phaseLaw (s := s) ⟨id, rfl, rfl, fun hu => ?_, .inl, rfl, id, id, id, id⟩ hs
    simp [State.configured, hu] at hc
  | trigEdge =>
    cases h
    exact State.unlessReset_phaseLaw (State.PhaseKept.phaseLaw (by constructor <;> simp +contextual) hs) hs
  | transactionOpen shifted => cases h; exact (State.openTransaction_kept_phase shifted s).phaseLaw hs
  | transactionEnd =>
    cases h
    split
    · exact hs
    · exact s.endTransaction_kept_phase.phaseLaw hs
  | statusByteEnd =>
    cases h
    exact State.PhaseLaw.ite (fun _ => State.PhaseKept.phaseLaw (by constructor <;> simp +contextual) hs) hs
  | setConfig w g q h p v =>
    cases h
    refine State.taken_phaseLaw _ _ hs fun htakes => ?_
    have hr : s.inReset = false := by
      simp only [State.takesCommand, Bool.and_eq_true, Bool.not_eq_true'] at htakes
      exact htakes.1.1
    split
    next => exact (hresponds _ _ _ (by decide)).phaseLaw hs
    next hc =>
      have hun : s.stepState = .unconfigured := by simpa [State.configured] using hc
      split
      next hp =>
        exact (State.respond_kept_phase _ _ _ (by decide)).phaseLaw (State.configure_phaseLaw _ hs hr hun hp)
      next => exact (hresponds _ _ _ (by decide)).phaseLaw hs
  | arm => cases h; exact htaken _ (State.setArmed_kept_phase _ s)
  | disarm => cases h; exact htaken _ (State.setArmed_kept_phase _ s)
  | takeOrder => cases h; exact htaken _ s.takeOrder_kept_phase
  | takeOrderCommit =>
    cases h
    exact State.PhaseLaw.ite (fun _ => (State.trail_kept_phase { s with orders := _ }).phaseLaw hs) hs
  | listEvents => cases h; exact htaken _ (hresponds _ _ _ (by decide))
  | stageEvent number => cases h; exact htaken _ (State.stageEvent_kept_phase _ s)
  | readStage offset length => cases h; exact htaken _ (State.readStage_kept_phase _ _ s)
  | readStatus => cases h; exact htaken _ (hresponds _ _ _ (by decide))
  | readCounters first n => cases h; exact htaken _ (State.readCounters_kept_phase _ _ s)
  | readRoster => cases h; exact htaken _ (hresponds _ _ _ (by decide))
  | ackFlags mask => cases h; exact htaken _ (hresponds _ _ _ (by simp))
  | ackFlagsCommit => cases h; exact State.PhaseLaw.ite (fun _ => s.commitFlags_kept_phase.phaseLaw hs) hs
  | askClear => cases h; exact htaken _ (State.askFrame_kept_phase _ s)
  | askEpoch => cases h; exact htaken _ (State.askFrame_kept_phase _ s)
  | restartStation => cases h; exact htaken _ s.askRestart_kept_phase
  | restartStationCommit =>
    cases h
    refine State.PhaseLaw.ite (fun hends => ?_) hs
    simp only [State.endsIn, Bool.and_eq_true, beq_iff_eq] at hends
    split
    · exact s.trail_kept_phase.phaseLaw hs
    · exact s.restart.trail_kept_phase.phaseLaw (State.restart_phaseLaw hs (hs.grounded.restart hends.2))
  | unknownCommand code =>
    cases h
    split
    · exact hs
    · exact htaken _ (hresponds _ _ _ (by decide))
  | transmissionStart recessive => cases h; exact State.start_phaseLaw _ hs
  | arbitrationLoss =>
    cases h
    refine State.PhaseLaw.ite (fun _ => ?_) hs
    split
    · exact (State.loseArbitration_kept_phase _ s).phaseLaw hs
    · exact hs
  | bitError =>
    cases h
    refine State.PhaseLaw.ite (fun ho => ?_) hs
    split
    · exact State.bitError_phaseLaw _ hs (hs.onLine_transmits ho)
    · exact hs
  | deferredOfferAdmitted =>
    cases h
    refine State.unlessReset_phaseLaw (State.PhaseKept.phaseLaw ?_ hs) hs
    exact .of_parts rfl
  | ownClaimCompletes =>
    cases h
    exact State.completeSequenced_phaseLaw _ _ (fun x => by constructor <;> simp +contextual) hs
  | ownCloseCompletes => cases h; exact State.completeSequenced_phaseLaw _ _ State.PhaseKept.refl hs
  | ownEpochCompletes => cases h; exact State.completeSequenced_phaseLaw _ _ State.epochArrival_kept_phase hs
  | ownClearCompletes =>
    cases h
    have hdone := s.completed_kept_phase.phaseLaw hs
    refine State.PhaseLaw.ite (fun _ => ?_) hs
    exact State.PhaseLaw.ite (fun _ => (State.applyClear_kept_phase _).phaseLaw hdone) hdone
  | ownStateCompletes =>
    cases h
    exact State.PhaseLaw.ite
      (fun _ => (s.completed_kept_phase.trans (State.chunkSent_kept_phase _)).phaseLaw hs) hs
  | ownStateReqCompletes =>
    cases h
    exact State.PhaseLaw.ite
      (fun _ => (s.completed_kept_phase.trans (State.requestSent_kept_phase _)).phaseLaw hs) hs
  | ownPresenceCompletes =>
    cases h
    exact State.PhaseLaw.ite (fun _ => s.completed_kept_phase.phaseLaw hs) hs
  | frameDiscarded fault =>
    cases h
    refine State.PhaseLaw.ite (fun _ => State.PhaseKept.phaseLaw ?_ hs) hs
    exact .of_parts rfl
  | claimAccepted h' stamp epoch =>
    cases h
    exact State.PhaseLaw.ite (fun _ => State.ownSequenced_phaseLaw _ _ (haccept _ _ _)) hs
  | closeAccepted h' number =>
    cases h
    exact State.PhaseLaw.ite (fun _ => State.ownSequenced_phaseLaw _ _ (haccept _ _ _)) hs
  | clearAccepted h' tick epoch =>
    cases h
    exact State.PhaseLaw.ite (fun _ => State.ownClear_phaseLaw _ _ (haccept _ _ _)) hs
  | epochAccepted h' =>
    cases h
    exact State.PhaseLaw.ite (fun _ => State.ownSequenced_phaseLaw _ _ (haccept _ _ _)) hs
  | stateAccepted h' body =>
    cases h
    refine State.PhaseLaw.ite (fun hr => ?_) hs
    split
    · exact State.ownState_phaseLaw _ _ (haccept _ _ _)
        ((State.accept_onLine _ _ _ s).trans (State.receives_onLine hr))
    · exact State.PhaseKept.phaseLaw (s := s) (.of_parts rfl) hs
  | stateReqAccepted h' fingerprint attempt =>
    cases h
    exact State.PhaseLaw.ite (fun _ => State.ownStateReq_phaseLaw _ (haccept _ _ _)) hs
  | presenceAccepted h' fingerprint =>
    cases h
    exact State.PhaseLaw.ite (fun _ => haccept _ _ _) hs
  | closeDueReached =>
    cases h
    exact State.unlessReset_phaseLaw (State.PhaseKept.phaseLaw (by constructor <;> simp +contextual) hs) hs
  | claimExpiry =>
    cases h
    exact State.unlessReset_phaseLaw (State.PhaseKept.phaseLaw (by constructor <;> simp +contextual) hs) hs
  | presenceDue =>
    cases h
    exact State.unlessReset_phaseLaw (State.PhaseKept.phaseLaw (by constructor <;> simp +contextual) hs) hs
  | absence => cases h; exact State.unlessReset_phaseLaw (s.markAbsent_kept_phase.phaseLaw hs) hs
  | requestDeadline => cases h; exact State.unlessReset_phaseLaw (State.testRequest_phaseLaw hs) hs
  | chunkDeadline => cases h; exact State.unlessReset_phaseLaw (State.testChunk_phaseLaw hs) hs
  | retryTick => cases h; exact State.unlessReset_phaseLaw (State.testRetry_phaseLaw hs) hs
  | answerDelayEnd => cases h; exact State.unlessReset_phaseLaw (State.testDelay_phaseLaw hs) hs
  | listeningEnd => cases h; exact State.unlessReset_phaseLaw (State.testListening_phaseLaw hs) hs
  | lineIdle =>
    cases h
    refine State.PhaseLaw.ite (fun _ => State.PhaseKept.phaseLaw ?_ hs) hs
    exact .of_parts rfl
  | startBitTaken =>
    cases h
    refine State.PhaseLaw.ite (fun _ => State.PhaseKept.phaseLaw ?_ hs) hs
    exact .of_parts rfl
  | breakEnd =>
    cases h
    refine State.PhaseLaw.ite (fun _ => State.PhaseKept.phaseLaw ?_ hs) hs
    exact .of_parts rfl
  | responseEnd => cases h; exact State.PhaseLaw.ite (fun _ => s.trail_kept_phase.phaseLaw hs) hs

/-- Settles O3: the command at the front keeps the law, and so does idling. -/
theorem everyStepKeepsThePhaseLaw : Obligations.EveryStepKeepsThePhaseLaw := by
  intro s t hs h
  unfold step at h
  split at h
  next => cases h; exact hs
  next c rest _ => exact exec_phaseLaw c (s := { s with pending := rest }) hs h

end Sys2Proof.Machine

/-! Frames on PBD: bit stuffing (O16), the bytes of a frame and its bits, read back (O15). -/

namespace Sys2Proof.Machine

/-! ### Bit stuffing (R50) -/

theorem unstuffFrom_stuffFrom (bits : List Bool) (last : Bool) (run : Nat) :
    unstuffFrom last run (stuffFrom last run bits) = some bits := by
  induction bits generalizing last run with
  | nil =>
    unfold stuffFrom
    split
    next hrun => simp [unstuffFrom, hrun]
    next hrun => simp [unstuffFrom, hrun]
  | cons b bits ih =>
    unfold stuffFrom
    split
    next hrun => simp [unstuffFrom, hrun, ih]
    next hrun => simp [unstuffFrom, hrun, ih]

theorem unstuff_stuff (bits : List Bool) : unstuff (stuff bits) = some bits := by
  cases bits with
  | nil => rfl
  | cons b bits => simp [stuff, unstuff, unstuffFrom_stuffFrom]

/-- After a run of `run` bits of level `last`, no run in the bits that follow grows beyond six. -/
def runsBounded (last : Bool) (run : Nat) : List Bool → Prop
  | [] => run ≤ 6
  | b :: bits => run ≤ 6 ∧ runsBounded b (if b = last then run + 1 else 1) bits

theorem stuffFrom_runsBounded (bits : List Bool) (last : Bool) (run : Nat) (h : run ≤ 6) :
    runsBounded last run (stuffFrom last run bits) := by
  induction bits generalizing last run with
  | nil =>
    unfold stuffFrom
    split
    · simp [runsBounded, h]
    · exact h
  | cons b bits ih =>
    unfold stuffFrom
    split
    · refine ⟨h, by simp, ?_⟩
      by_cases hb : b = !last <;> simpa [hb] using ih _ _ (by simp)
    · exact ⟨h, ih b _ (by split <;> omega)⟩

/-- A run goes on through equal bits and stays within six. -/
theorem runsBounded_replicate (b : Bool) (n run : Nat) (rest : List Bool)
    (h : runsBounded b run (List.replicate n b ++ rest)) : run + n ≤ 6 := by
  induction n generalizing run with
  | zero => cases rest <;> [exact h; exact h.1]
  | succ n ih =>
    have := ih (run + 1) (by simpa using h.2)
    omega

/-- Where every run is bounded, no seven equal bits stand in a row. -/
theorem runsBounded_noSeven (bits : List Bool) (last : Bool) (run : Nat) (h : runsBounded last run bits)
    (i : Nat) (b : Bool) : (bits.drop i).take 7 ≠ List.replicate 7 b := by
  induction bits generalizing last run i with
  | nil => simp
  | cons x bits ih =>
    cases i with
    | succ i => exact ih _ _ h.2 i
    | zero =>
      intro hseven
      have hsplit := List.take_append_drop 7 (x :: bits)
      rw [List.drop_zero] at hseven
      rw [hseven, List.replicate_succ, List.cons_append, List.cons.injEq] at hsplit
      obtain ⟨rfl, hrest⟩ := hsplit
      have hrun := h.2
      rw [← hrest] at hrun
      have := runsBounded_replicate _ _ _ _ hrun
      split at this <;> omega

/-- Settles O16, the two halves by induction over the bits. -/
theorem stuffingIsRemovedAndBoundsRuns : Obligations.StuffingIsRemovedAndBoundsRuns := by
  intro bits
  refine ⟨unstuff_stuff bits, fun i b => ?_⟩
  cases bits with
  | nil => simp [stuff]
  | cons x bits =>
    have hstuffed : runsBounded x 0 (stuff (x :: bits)) := by
      simpa [stuff, runsBounded] using stuffFrom_runsBounded bits x 1 (by omega)
    exact runsBounded_noSeven _ _ _ hstuffed i b

/-! ### Bits, bytes and halves (R176) -/

theorem bitsByte_byteBits (b : Byte) : bitsByte (byteBits b) = b := by
  revert b
  decide

theorem bitsBytes_flatMap_byteBits (bytes : List Byte) : bitsBytes (bytes.flatMap byteBits) = bytes := by
  induction bytes with
  | nil => rfl
  | cons b bytes ih =>
    have hbyte := bitsByte_byteBits b
    simp only [List.flatMap_cons, byteBits, List.map_cons, List.map_nil, List.cons_append, List.nil_append,
      bitsBytes] at hbyte ih ⊢
    rw [hbyte, ih]

theorem half_be16 (x : Half) : half (x.extractLsb' 8 8) (x.extractLsb' 0 8) = x := by
  refine BitVec.eq_of_getLsbD_eq fun i hi => ?_
  refine (BitVec.getLsbD_append (x := x.extractLsb' 8 8) (y := x.extractLsb' 0 8)).trans ?_
  by_cases hlow : i < 8
  · simp [hlow]
  · simp [hlow, show i - 8 < 8 by omega, show 8 + (i - 8) = i by omega]

/-! ### The bytes of a frame (R53, R64, R176) -/

theorem kindOfCode_code (k : Kind) : kindOfCode k.code = some k := by cases k <;> rfl

theorem arbByte_getLsbD (k : Kind) (a : Addr) (i : Nat) :
    (arbByte k a).getLsbD i = if i < 4 then a.getLsbD i else k.code.getLsbD (i - 4) :=
  BitVec.getLsbD_append

theorem arbByte_code (k : Kind) (a : Addr) : (arbByte k a).extractLsb' 4 4 = k.code := by
  ext i hi
  simp [arbByte_getLsbD, BitVec.getLsbD_eq_getElem hi]

theorem arbByte_addr (k : Kind) (a : Addr) : (arbByte k a).extractLsb' 0 4 = a := by
  ext i hi
  simp [arbByte_getLsbD, hi]

theorem flagsByte_getLsbD (inStep armed : Bool) (len i : Nat) : (flagsByte inStep armed len).getLsbD i =
    if i < 6 then (BitVec.ofNat 6 len).getLsbD i
    else if i - 6 < 1 then (BitVec.ofBool armed).getLsbD (i - 6)
    else (BitVec.ofBool inStep).getLsbD (i - 6 - 1) :=
  BitVec.getLsbD_append.trans (by rw [BitVec.getLsbD_append])

theorem flagsByte_length (inStep armed : Bool) (len : Nat) (h : len < 64) :
    ((flagsByte inStep armed len).extractLsb' 0 6).toNat = len := by
  have hbits : (flagsByte inStep armed len).extractLsb' 0 6 = BitVec.ofNat 6 len := by
    ext i hi
    simp [flagsByte_getLsbD, hi]
  rw [hbits, BitVec.toNat_ofNat]
  omega

theorem flagsByte_flags (inStep armed : Bool) (len : Nat) :
    (flagsByte inStep armed len).getLsbD 7 = inStep ∧ (flagsByte inStep armed len).getLsbD 6 = armed := by
  simp only [flagsByte_getLsbD]
  cases inStep <;> cases armed <;> exact ⟨rfl, rfl⟩

/-- The length field holds every length a kind allows (R64, R176). -/
theorem Kind.lengthOk_lt {k : Kind} {n : Nat} (h : k.lengthOk n = true) : n < 64 := by
  cases k <;> simp [Kind.lengthOk] at h <;> omega

/-- The bytes of a frame of lawful length pass the Bus Receiver's tests (R64, R65, R179). -/
theorem decodeFrame_bytes (f : Frame) (h : f.kind.lengthOk f.body.length = true) :
    Decode.frame f.bytes = Decode.acceptedFrame f.kind f.header f.body := by
  obtain ⟨hin, harmed⟩ := flagsByte_flags f.header.inStep f.header.armed f.body.length
  simp only [Frame.bytes, Frame.checked, be16, List.cons_append, List.nil_append, Decode.frame, arbByte_code,
    kindOfCode_code, flagsByte_length _ _ _ (Kind.lengthOk_lt h), h, if_true, List.take_left, List.drop_left,
    Decode.headerOf, arbByte_addr, hin, harmed, half_be16]

/-- The command of a frame of lawful length is well formed, and no discard (R64, R66). -/
theorem acceptedFrame_wf {k : Kind} (h : Header) {body : List Byte} (hk : k.lengthOk body.length = true) :
    (Decode.acceptedFrame k h body).wf = true
      ∧ ∀ fault, Decode.acceptedFrame k h body ≠ .frameDiscarded fault := by
  cases k with
  | state => exact ⟨(lengthOk_state_eq body.length).symm.trans hk, fun _ => Instr.noConfusion⟩
  | epoch =>
    obtain rfl : body = [] := by simpa [Kind.lengthOk] using hk
    exact ⟨rfl, fun _ => Instr.noConfusion⟩
  | clear =>
    obtain ⟨a, b, c, d, rfl⟩ := List.length_eq_four.mp (by simpa [Kind.lengthOk] using hk)
    exact ⟨rfl, fun _ => Instr.noConfusion⟩
  | close =>
    obtain ⟨a, b, rfl⟩ := List.length_eq_two.mp (by simpa [Kind.lengthOk] using hk)
    exact ⟨rfl, fun _ => Instr.noConfusion⟩
  | claim =>
    obtain ⟨a, b, c, d, rfl⟩ := List.length_eq_four.mp (by simpa [Kind.lengthOk] using hk)
    exact ⟨rfl, fun _ => Instr.noConfusion⟩
  | stateReq =>
    obtain ⟨a, b, c, rfl⟩ := List.length_eq_three.mp (by simpa [Kind.lengthOk] using hk)
    exact ⟨rfl, fun _ => Instr.noConfusion⟩
  | presence =>
    obtain ⟨a, b, rfl⟩ := List.length_eq_two.mp (by simpa [Kind.lengthOk] using hk)
    exact ⟨rfl, fun _ => Instr.noConfusion⟩

/-- The bits of a frame on PBD are read back as its bytes: stuffing, then the end field (R50, R53, R65). -/
theorem decodeWire_wire (f : Frame) : Decode.wire f.wire = Decode.frame f.bytes := by
  have hstuffed : f.wire.take (f.wire.length - 3) = stuff (false :: f.bytes.flatMap byteBits) := by
    simp [Frame.wire]
  have hend : f.wire.drop (f.wire.length - 3) = [true, true, true] := by simp [Frame.wire]
  simp only [Decode.wire, hstuffed, hend, unstuff_stuff, if_true, bitsBytes_flatMap_byteBits]

/-- Settles O15: the bits, the bytes and the command in turn. -/
theorem frameOnTheLineIsReadBack : Obligations.FrameOnTheLineIsReadBack := by
  intro f h
  exact ⟨(decodeWire_wire f).trans (decodeFrame_bytes f h), acceptedFrame_wf f.header h⟩

end Sys2Proof.Machine

/-! Starting a frame, the attempts that end without a discard, the third discard in a row, and the line (O31,
O32, O33, O35, O36). -/

namespace Sys2Proof.Machine

/-! ### Starting (R52, R54, R55, R57) -/

/-- With the line the station's own to take, the head starts once the larger of the two counts says so. -/
theorem State.mayStart_lineRecessive {s : State} (n : Nat) (hr : s.inReset = false) (hrx : s.rx ≠ .receiving)
    (ho : s.tx.onLine = none) (hb : s.tx.breaking = false) : (s.lineRecessive n).mayStart =
      decide ((if s.tx.yielding then 24 else 12) ≤ max s.tx.recessive n) := by
  simp [State.mayStart, State.lineRecessive, Transmitter.idle, Transmitter.idleNeeded, Config.yieldBits,
    Config.idleBits, hr, hrx, ho, hb]

theorem State.maySend_iff (s : State) (k : Kind) : s.maySend k = true ↔
    s.stepState = .inStep ∨ (s.stepState = .outOfStep ∧ k.ordered = false) := by
  unfold State.maySend State.transmits
  cases k.ordered <;> simp

/-- A head that may be sent starts or waits by the recessive count alone (R55). -/
theorem State.start_eq {s : State} {e : Entry} {rest : List Entry} (n : Nat) (hr : s.inReset = false)
    (hrx : s.rx ≠ .receiving) (ho : s.tx.onLine = none) (hb : s.tx.breaking = false)
    (hbox : s.tx.outbox = e :: rest) (hsend : s.maySend e.body.kind = true) : s.start n =
      if (if s.tx.yielding then 24 else 12) ≤ max s.tx.recessive n then s.startHead e rest else s := by
  unfold State.start
  rw [hbox]
  simp only [State.mayStart_lineRecessive n hr hrx ho hb, hsend, Bool.and_true, decide_eq_true_eq]

/-- Settles O31: the count is tested, then the head's frame is filled. -/
theorem transmissionStartsTheHead : Obligations.TransmissionStartsTheHead := by
  intro n s e rest hr hrx ho hb hbox hstep
  have hstart := s.start_eq n hr hrx ho hb hbox ((s.maySend_iff _).mpr hstep)
  refine ⟨fun hfew => ?_, fun hidle => ?_⟩
  · rw [if_neg (not_le.mpr hfew)] at hstart
    exact congrArg Host.Outcome.next hstart
  · rw [if_pos hidle] at hstart
    refine congrArg Host.Outcome.next (hstart.trans ?_)
    cases hbody : e.body <;> simp only [State.startHead, State.frameOf, State.bodyBytes, hbody] <;> rfl

/-! ### The end of an attempt without a discard (R56, R58, R72) -/

/-- The entry in transmission goes back into its place, `f` applied. -/
def Transmitter.putBack (f : Entry → Entry) (t : Transmitter) : Transmitter :=
  { t with outbox := t.outbox.map (fun x => if x.sending then { f x with sending := false } else x),
           onLine := none }

theorem generalCount_putBack {f : Entry → Entry} (hf : ∀ e, (f e).body = e.body) (t : Transmitter) :
    generalCount (t.putBack f).outbox = generalCount t.outbox := by
  have hbody : ∀ e : Entry, (if e.sending then { f e with sending := false } else e).body = e.body :=
    fun e => by split <;> simp [hf]
  unfold generalCount Transmitter.putBack
  dsimp only
  rw [List.filter_map, List.length_map]
  simp only [Function.comp_def, hbody]

/-- Without a withdrawal mark the entry goes back into its place, and no deferred offer finds room. -/
theorem Transmitter.Sends.returnSending_unmarked {t : Transmitter} {e : Entry} (hs : t.Sends e) (hl : t.Law)
    {f : Entry → Entry} (hf : ∀ e, (f e).body = e.body) (hm : e.mark = false) :
    t.returnSending f = t.putBack f ∧ t.returnedClaims = 0 := by
  have hkeep : ∀ x ∈ t.outbox, (x.sending && x.mark) = false := fun x hx => by
    by_cases hxs : x.sending = true
    · rw [sending_unique t e x hl hs.online hs.mem hs.sending hx hxs, hm, Bool.and_false]
    · simp [hxs]
  have hall : t.outbox.filter (fun x => !(x.sending && x.mark)) = t.outbox :=
    List.filter_eq_self.mpr fun x hx => by simp [hkeep x hx]
  constructor
  · have hfull : (t.putBack f).admitDeferred = t.putBack f := admitDeferred_full _ fun hd =>
      (generalCount_putBack hf t).trans (hl.full hd)
    rw [Transmitter.returnSending, hall]
    exact hfull
  · rw [Transmitter.returnedClaims, List.length_eq_zero_iff, List.filter_eq_nil_iff]
    intro x hx
    simp [hkeep x hx]

/-- With a withdrawal mark the entry, a CLAIM, leaves as at a discard (R72, R83). -/
theorem Transmitter.Sends.returnSending_marked {t : Transmitter} {e : Entry} (hs : t.Sends e) (hl : t.Law)
    (f : Entry → Entry) (hm : e.mark = true) :
    t.returnSending f = t.dropSending ∧ t.returnedClaims = 1 ∧ e.body.kind = .claim := by
  have hclaim := ((hl.loose.entries.carried e hs.mem).2 hm).2
  have hmark : ∀ x ∈ t.outbox, x.sending = true → x.mark = true ∧ x.body.isKind .claim = true :=
    fun x hx hxs => by
      rw [sending_unique t e x hl hs.online hs.mem hs.sending hx hxs]
      exact ⟨hm, by simp [Body.isKind, hclaim]⟩
  refine ⟨?_, ?_, hclaim⟩
  · have hgone : (t.outbox.filter (fun x => !(x.sending && x.mark))).map
        (fun x => if x.sending then { f x with sending := false } else x) = t.waiting := by
      have hfilter : t.outbox.filter (fun x => !(x.sending && x.mark)) = t.waiting :=
        List.filter_congr fun x hx => by
          by_cases hxs : x.sending = true
          · simp [hxs, (hmark x hx hxs).1]
          · simp [hxs]
      rw [hfilter]
      refine (List.map_congr_left fun x hx => ?_).trans (List.map_id _)
      simp [((Transmitter.mem_waiting x t).mp hx).2]
    rw [Transmitter.returnSending, hgone]
    rfl
  · have hone : (t.outbox.filter Entry.sending).length = 1 := by
      have := hl.loose.sending
      simpa [hs.online] using this
    rw [Transmitter.returnedClaims, ← hone]
    congr 1
    exact List.filter_congr fun x hx => by
      by_cases hxs : x.sending = true
      · simp [hxs, hmark x hx hxs]
      · simp [hxs]

/-- The outbox and the counters after an attempt that ended without a discard (R56, R58, R72). -/
theorem State.returnEntry_cases {m : State} {e : Entry} (hs : m.tx.Sends e) (hl : m.tx.Law) {f : Entry → Entry}
    (hf : ∀ e, (f e).body = e.body) :
    (e.mark = false → (m.returnEntry e f).tx = m.tx.putBack f ∧ (m.returnEntry e f).counters = m.counters)
      ∧ (e.mark = true → (m.returnEntry e f).tx = m.tx.dropSending
          ∧ (m.returnEntry e f).counters = Counters.rise .claimsWithdrawn 1 m.counters) := by
  constructor
  · intro hm
    obtain ⟨htx, hclaims⟩ := hs.returnSending_unmarked hl hf hm
    simp [State.returnEntry, hm, htx, hclaims, Counters.rise_zero]
  · intro hm
    obtain ⟨htx, hclaims, hkind⟩ := hs.returnSending_marked hl f hm
    simp [State.returnEntry, State.recheck, hm, htx, hclaims, hkind]

/-- Settles O32: the entry goes back, or leaves with its mark. -/
theorem arbitrationLossKeepsTheEntry : Obligations.ArbitrationLossKeepsTheEntry := by
  intro s e hr honline hl hmem hsending
  obtain ⟨m, hm⟩ : ∃ m, m = { s with rx := .receiving }.lineBusy.rise .arbLosses 1 := ⟨_, rfl⟩
  have hexec : exec .arbitrationLoss s = .next (m.returnEntry e id) := by
    have hline : s.onLine = true := by simp [State.onLine, hr, honline]
    simp only [exec, execArbitrationLoss, hline, if_true, sendingEntry_eq s.tx e hl honline hmem hsending,
      State.loseArbitration, hm]
  have htx : m.tx = { s.tx with recessive := 0 } := by rw [hm]; rfl
  have hcounters : m.counters = Counters.rise .arbLosses 1 s.counters := by rw [hm]; rfl
  have hlaw : m.tx.Law := by rw [htx]; exact hl.congr rfl rfl rfl hl.loose.discards
  obtain ⟨hback, hgone⟩ := State.returnEntry_cases (m := m) (e := e)
    (by rw [htx]; exact ⟨honline, hmem, hsending⟩) hlaw (f := id) fun _ => rfl
  have hkept : (m.returnEntry e id).rx = .receiving ∧ (m.returnEntry e id).table = s.table
      ∧ (m.returnEntry e id).stepState = s.stepState ∧ (m.returnEntry e id).requester = s.requester
      ∧ (m.returnEntry e id).responder = s.responder ∧ (m.returnEntry e id).orders = s.orders
      ∧ (m.returnEntry e id).flags = s.flags := by
    subst hm
    simp
  obtain ⟨hrx, htable, hstep, hreq, hresp, horders, hflags⟩ := hkept
  rw [htx, hcounters] at hback hgone
  refine ⟨_, hexec, hrx, ?_⟩
  generalize m.returnEntry e id = t at *
  unfold State.counter
  by_cases hmark : e.mark = true
  · obtain ⟨ttx, tcounters⟩ := hgone hmark
    rw [ttx, tcounters]
    refine ⟨by simp, by simp, htable, hstep, by simp, by simp, hreq, hresp, horders, hflags,
      fun hn => absurd (hmark.symm.trans hn) (by decide), fun _ hd => ⟨?_, by simp⟩⟩
    exact Transmitter.dropSending_outbox _ hd
  · obtain ⟨ttx, tcounters⟩ := hback (by simpa using hmark)
    rw [ttx, tcounters]
    exact ⟨rfl, by simp, htable, hstep, rfl, rfl, hreq, hresp, horders, hflags,
      fun _ => ⟨rfl, by simp⟩, fun hn => absurd hn hmark⟩

/-- Settles O33: the break is driven, and the entry goes back with its attempt count raised, or leaves with its
mark. -/
theorem bitErrorIsRetried : Obligations.BitErrorIsRetried := by
  intro s e hr honline hl hmem hsending hattempts
  obtain ⟨f, hf⟩ : ∃ f : Entry → Entry, f = fun x => { x with attempts := x.attempts + 1 } := ⟨_, rfl⟩
  obtain ⟨m, hm⟩ : ∃ m, m = s.driveBreak.rise .txAborts 1 := ⟨_, rfl⟩
  have hexec : exec .bitError s = .next (m.returnEntry e f) := by
    have hline : s.onLine = true := by simp [State.onLine, hr, honline]
    have hbelow : ¬Config.maxAttempts ≤ e.attempts + 1 := by change ¬8 ≤ e.attempts + 1; omega
    simp only [exec, execBitError, hline, if_true, sendingEntry_eq s.tx e hl honline hmem hsending, State.bitError,
      hbelow, if_false, hm, hf]
  have htx : m.tx = { s.tx with recessive := 0, breaking := true } := by rw [hm]; rfl
  have hcounters : m.counters = Counters.rise .txAborts 1 s.counters := by rw [hm]; rfl
  have hlaw : m.tx.Law := by rw [htx]; exact hl.congr rfl rfl rfl hl.loose.discards
  obtain ⟨hback, hgone⟩ := State.returnEntry_cases (m := m) (e := e)
    (by rw [htx]; exact ⟨honline, hmem, hsending⟩) hlaw (f := f) fun _ => by rw [hf]
  have hkept : (m.returnEntry e f).rx = .waitIdle ∧ (m.returnEntry e f).table = s.table
      ∧ (m.returnEntry e f).stepState = s.stepState ∧ (m.returnEntry e f).requester = s.requester
      ∧ (m.returnEntry e f).responder = s.responder ∧ (m.returnEntry e f).orders = s.orders
      ∧ (m.returnEntry e f).flags = s.flags := by
    subst hm
    simp [State.driveBreak]
  obtain ⟨hrx, htable, hstep, hreq, hresp, horders, hflags⟩ := hkept
  rw [htx, hcounters] at hback hgone
  refine ⟨_, hexec, hrx, ?_⟩
  generalize m.returnEntry e f = t at *
  unfold State.counter
  by_cases hmark : e.mark = true
  · obtain ⟨ttx, tcounters⟩ := hgone hmark
    rw [ttx, tcounters]
    refine ⟨by simp, by simp, by simp, fun hn => absurd (hmark.symm.trans hn) (by decide),
      fun _ => ⟨fun he => ?_, fun x hx => Transmitter.mem_dropSending hx,
        fun hd => Transmitter.dropSending_outbox _ hd, by simp⟩, by simp, htable, hstep, by simp, hreq, hresp,
      horders, hflags⟩
    rcases Transmitter.mem_dropSending he with hw | ⟨b, -, hb⟩
    · have := ((Transmitter.mem_waiting e _).mp hw).2
      rw [hsending] at this; cases this
    · rw [hb] at hsending; cases hsending
  · obtain ⟨ttx, tcounters⟩ := hback (by simpa using hmark)
    rw [ttx, tcounters]
    subst hf
    exact ⟨rfl, rfl, by simp, fun _ => ⟨rfl, by simp⟩, fun hn => absurd hn hmark, by simp, htable, hstep, rfl,
      hreq, hresp, horders, hflags⟩

end Sys2Proof.Machine

namespace Sys2Proof.Machine

/-! ### The third discard in a row (R60) -/

/-- The eighth error of an entry that brings the third discard in a row takes the station into MUTE. -/
theorem State.exec_bitError_mutes {s : State} {e : Entry} (hr : s.inReset = false) (he : s.tx.Sends e)
    (hl : s.tx.Law) (ha : e.attempts = 7) (hd : s.tx.discards = 2) :
    exec .bitError s = .next s.discarded.enterMute := by
  have hentry := sendingEntry_eq s.tx e hl he.online he.mem he.sending
  have honline : s.onLine = true := by simp [State.onLine, hr, he.online]
  have hthird : Config.maxDiscards ≤ s.driveBreak.tx.discards + 1 := by
    change 3 ≤ s.tx.discards + 1
    omega
  simp only [exec, execBitError, honline, hentry, if_true, State.bitError, State.discard, ha, Config.maxAttempts,
    State.rise_tx, hthird]
  rfl

/-- After the discard nothing is in transmission. -/
theorem State.discarded_still {s : State} (hl : s.tx.Law) : s.discarded.tx.Still := by
  have hdropped : s.tx.dropSending.Still := hl.dropSending.still (by simp)
  exact hdropped

/-- The claims that stand after the discard are those that waited before it: no deferred offer is a claim. -/
theorem State.discarded_claims {s : State} (hl : s.tx.Law) : s.discarded.tx.countKind .claim =
    (s.tx.outbox.filter (fun x => x.body.isKind .claim && !x.sending)).length := by
  have hnone : ∀ bs : List Body, (∀ b ∈ bs, b ∈ s.tx.deferred) → bs.filter (Body.isKind .claim) = [] := by
    intro bs hbs
    refine List.filter_eq_nil_iff.mpr fun b hb hk => ?_
    rw [Body.isKind, beq_iff_eq] at hk
    have hkind := (hl.loose.offers.kinds b (hbs b hb)).1
    rw [hk] at hkind
    simp at hkind
  have htotal := admitOffers_kindTotal .claim s.tx.deferred s.tx.waiting
  rw [hnone _ fun b hb => hb, hnone _ fun b hb => admitOffers_deferred_sub _ _ b hb] at htotal
  have hfilter : s.tx.outbox.filter (fun x => x.body.isKind .claim && !x.sending)
      = s.tx.waiting.filter (fun x => x.body.isKind .claim) := (List.filter_filter).symm
  rw [hfilter]
  simpa [Transmitter.countKind, State.discarded, Transmitter.dropSending_eq, Transmitter.admitDeferred] using htotal

/-- What the entry into MUTE makes of a station with nothing in transmission (R60). -/
theorem State.enterMute_acts {d : State} (hst : d.tx.Still) :
    d.enterMute.tx.outbox = [] ∧ d.enterMute.tx.deferred = []
      ∧ (∀ f, d.enterMute.hasFlag f = (d.setFlag .muted).hasFlag f)
      ∧ d.enterMute.counters = Counters.rise .claimsWithdrawn (d.tx.countKind .claim) d.counters
      ∧ d.enterMute.table = { d.table with slots := d.table.slots.map (fun r => { r with due := none }) }
      ∧ d.enterMute.requester = Requester.idle ∧ d.enterMute.responder = Responder.idle
      ∧ d.enterMute.tx.breaking = d.tx.breaking := by
  obtain ⟨houtbox, hdeferred⟩ := hst.withdraw_all
  have hclaims := hst.withdrawnClaims (fun _ => true) fun _ _ => rfl
  refine ⟨houtbox, hdeferred, fun f => by simp [State.hasFlag, State.enterMute], ?_,
    by simp [State.enterMute, State.dropDues], rfl, rfl, by simp [State.enterMute]⟩
  rw [← hclaims]
  simp [State.enterMute, State.withdraw]

/-- Settles O35: the discard, then the entry into MUTE. -/
theorem thirdDiscardMutes : Obligations.ThirdDiscardMutes := by
  intro s e hr honline hl hmem hsending hattempts hdiscards
  obtain ⟨-, -, hclaims, htable, -⟩ := s.discarded_fields
  obtain ⟨houtbox, hdeferred, hflag, hcounters, hduesgone, hreq, hresp, hbreak⟩ :=
    State.enterMute_acts (s.discarded_still hl)
  have hother : ∀ f, s.discarded.hasFlag f = s.hasFlag f := fun f => by simp [State.hasFlag, State.discarded]
  refine ⟨_, s.exec_bitError_mutes hr ⟨honline, hmem, hsending⟩ hl hattempts hdiscards, rfl, ?_, fun f hf => ?_,
    houtbox, hdeferred, rfl, by rw [hbreak]; rfl, ?_, ?_, ?_, ?_, hreq, hresp, by simp [State.discarded],
    by simp [State.discarded]⟩
  · rw [hflag, State.hasFlag_setFlag_self]
  · rw [hflag, State.hasFlag_setFlag_other _ _ _ (Ne.symm hf), hother]
  · rw [State.counter, hcounters, Counters.read_rise_self, State.discarded_claims hl]
    exact congrArg (satAdd16 · _) hclaims
  · rw [State.counter, hcounters, Counters.read_rise_other _ _ _ _ (by decide)]
    simp [State.discarded, State.counter]
  · rw [hduesgone]
    intro r hslot
    obtain ⟨x, -, rfl⟩ := List.mem_map.mp hslot
    rfl
  · rw [hduesgone, htable, Table.shared_withoutDues]

/-! ### Deferred offers and the line (R51, R52, R57, R63, R65, R71) -/

/-- Offers of general kinds are admitted in their order, one for each free general place. -/
theorem admitOffers_eq (bs : List Body) (es : List Entry) (hg : ∀ b ∈ bs, b.kind.general = true) :
    admitOffers bs es =
      ((bs.take (6 - generalCount es)).foldl (fun es b => insertEntry (Entry.fresh b) es) es,
        bs.drop (6 - generalCount es)) := by
  induction bs generalizing es with
  | nil => simp [admitOffers]
  | cons b bs ih =>
    unfold admitOffers Config.maxGeneral
    by_cases hroom : generalCount es < 6
    · have hcount : generalCount (insertEntry (Entry.fresh b) es) = generalCount es + 1 := by
        have hb : (Entry.fresh b).body.kind.general = true := hg b (by simp)
        rw [generalCount, countP_insertEntry, hb]
        rfl
      obtain ⟨free, hfree⟩ : ∃ free, 6 - generalCount es = free + 1 := ⟨5 - generalCount es, by omega⟩
      rw [if_pos hroom, ih _ fun c hc => hg c (by simp [hc]), hcount, hfree,
        show 6 - (generalCount es + 1) = free by omega]
      rfl
    · rw [if_neg hroom, show 6 - generalCount es = 0 by omega]
      rfl

/-- Settles O36, row by row. -/
theorem deferredOffersAndTheLine : Obligations.DeferredOffersAndTheLine := by
  refine ⟨fun s hr hg => ?_, fun fault s hr ho =>
    ⟨fun hrx => ?_, fun hrx hb => ?_, fun hrx hb => ?_, fun hb => ?_⟩⟩
  · simp only [exec, execDeferredOfferAdmitted, State.unlessReset, hr, Transmitter.admitDeferred,
      admitOffers_eq _ _ hg]
    rfl
  · have hreceives : s.receives = true := by simp [State.receives, hr, hrx, ho]
    simp only [exec, execFrameDiscarded, hreceives, if_true]
    rfl
  · have hidle : (!s.inReset && s.rx == .waitIdle && !s.drivesLine) = true := by
      simp [State.drivesLine, hr, hrx, hb, ho]
    simp only [exec, execLineIdle, hidle, if_true, State.receiverIdle_lineRecessive s hrx]
  · have hready : (!s.inReset && s.rx == .ready && !s.drivesLine) = true := by
      simp [State.drivesLine, hr, hrx, hb, ho]
    simp only [exec, execStartBitTaken, hready, if_true]
    rfl
  · have hbreaking : (!s.inReset && s.tx.breaking) = true := by simp [hr, hb]
    simp only [exec, execBreakEnd, hbreaking, if_true]
    rfl

end Sys2Proof.Machine

/-! The own STATE, STATE_REQ and PRESENCE complete, PRESENCE and absence timed, and the restart (O30, O39, O58). -/

namespace Sys2Proof.Machine

/-! ### The completion of a frame that is not ordered (R61, R104, R108, R129) -/

/-- The entry in transmission is a frame of its kind on the line. -/
theorem State.sends_of {s : State} {e : Entry} (hr : s.inReset = false) (he : s.tx.Sends e) (hl : s.tx.Law) :
    s.sends e.body.kind = true := by
  have hentry := sendingEntry_eq s.tx e hl he.online he.mem he.sending
  simp [State.sends, State.sendingKind, hr, he.online, hentry]

/-- After a completion the kind of the entry that has left stands no more, where it stands once at most (R68). -/
theorem State.completed_unqueued {s : State} {e : Entry} (he : s.tx.Sends e) (hl : s.tx.Law)
    (hc : e.body.kind ≠ .claim) (hd : e.body.kind ≠ .close) : s.completed.tx.queued e.body.kind = false := by
  have hgone := he.dropSending_queued hl e.body.kind hc hd
  rw [Body.isKind, beq_self_eq_true, Bool.not_true, Bool.and_false] at hgone
  exact hgone

/-- A STATE offered after a STATE has completed: it stands, and with nothing deferred in its place in the outbox
(R69 to R71, R129). -/
theorem State.completed_offers_state {s : State} {e : Entry} (he : s.tx.Sends e) (hl : s.tx.Law)
    (hk : e.body.kind = .state) (c : Chunk) : (s.completed.tx.offer (.state c)).Offers (.state c)
      ∧ (s.tx.deferred = [] → (s.completed.tx.offer (.state c)).outbox =
          insertEntry (Entry.fresh (.state c)) s.tx.waiting) := by
  have hgone := s.completed_unqueued he hl (by simp [hk]) (by simp [hk])
  rw [hk] at hgone
  refine ⟨Transmitter.offer_offers _ _ hgone, fun hd => ?_⟩
  have hroom := he.waiting_room hl (by rw [hk]; rfl)
  have houtbox := (State.completed_outbox_of_nil hd).1
  rw [← houtbox] at hroom ⊢
  rw [Transmitter.offer, if_neg (by simpa [Body.kind] using hgone), if_pos hroom]
  rfl

/-- The outbox after an offer at a station with nothing in transmission. -/
theorem State.completed_offer_entries (s : State) (b : Body) :
    (∀ x ∈ (s.completed.tx.offer b).outbox, x.sending = false)
      ∧ ∀ x ∈ s.tx.waiting, x ∈ (s.completed.tx.offer b).outbox := by
  refine ⟨fun x hx => ?_, fun x hx => Transmitter.mem_offer_of_mem ?_⟩
  · rcases Transmitter.mem_offer hx with rfl | hx
    · rfl
    · exact s.completed_still x hx
  · exact mem_admitOffers_of_mem s.tx.deferred s.tx.waiting x hx

/-- What the responder does when its STATE has completed (R129). -/
theorem State.chunkSent_cases {m : State} {tg : Addr} {b : Snapshot} {total next : Nat} {sent : Bool}
    (hp : m.responder.phase = .sending tg b total next sent) :
    (next + 1 < total → m.chunkSent = State.offer (.state (b.chunk tg total (next + 1)))
        { m with responder := { phase := .sending tg b total (next + 1) (sent || next == 0),
                                latch := m.responder.latch } })
      ∧ (total ≤ next + 1 → m.chunkSent = m.takeLatch) := by
  unfold State.chunkSent
  rw [hp]
  exact ⟨fun hmore => if_pos hmore, fun hlast => if_neg (not_lt.mpr hlast)⟩

/-- The own STATE completes: the next chunk, or the end of the service (R129). -/
theorem State.ownState_completes {s : State} {e : Entry} (hr : s.inReset = false) (he : s.tx.Sends e)
    (hl : s.tx.Law) (hk : e.body.kind = .state) {tg : Addr} {b : Snapshot} {total next : Nat} {sent : Bool}
    (hp : s.responder.phase = .sending tg b total next sent) :
    ∃ t, exec .ownStateCompletes s = .next t ∧ t.tx.yielding = true ∧ t.tx.discards = 0
      ∧ t.lastSent = s.tick ∧ t.rx = .waitIdle ∧ t.table = s.table
      ∧ (∀ x ∈ t.tx.outbox, x.sending = false) ∧ (∀ x ∈ s.tx.waiting, x ∈ t.tx.outbox)
      ∧ (next + 1 < total → t.tx.Offers (.state (b.chunk tg total (next + 1)))
          ∧ (∀ r, b.records[next]? = some r → b.chunk tg total (next + 1) =
              { target := tg, index := next + 1, total := total, payload := .record r })
          ∧ (s.tx.deferred = [] → t.tx.outbox =
              insertEntry (Entry.fresh (.state (b.chunk tg total (next + 1)))) s.tx.waiting)
          ∧ t.responder = { phase := .sending tg b total (next + 1) (sent || next == 0),
                            latch := s.responder.latch })
      ∧ (total ≤ next + 1 → t.tx.queued .state = false
          ∧ (s.tx.deferred = [] → t.tx.outbox = s.tx.waiting)
          ∧ t.responder = (match s.responder.latch with
              | some a => { phase := .delay a
                              (s.tick + BitVec.ofNat 24 (4 * (s.addr.toNat + 1))), latch := none }
              | none   => Responder.idle)) := by
  have hexec : exec .ownStateCompletes s = .next s.completed.chunkSent := by
    simp only [exec, execOwnStateCompletes, ← hk, State.sends_of hr he hl, if_true]
  obtain ⟨-, hdiscards, hyields, hrx, hsent, htable, -⟩ := s.completed_fields
  have hphase : s.completed.responder.phase = .sending tg b total next sent := hp
  obtain ⟨hmore, hlast⟩ := State.chunkSent_cases hphase
  refine ⟨_, hexec, ?_⟩
  rcases Nat.lt_or_ge (next + 1) total with hlt | hge
  · rw [hmore hlt]
    obtain ⟨hoffers, hplace⟩ := State.completed_offers_state he hl hk (b.chunk tg total (next + 1))
    obtain ⟨hstill, hwaiting⟩ := s.completed_offer_entries (.state (b.chunk tg total (next + 1)))
    exact ⟨by simpa using hyields, by simpa using hdiscards, hsent, hrx, htable, hstill, hwaiting,
      fun _ => ⟨hoffers, fun r hrec => by simp [Snapshot.chunk, hrec], hplace, rfl⟩,
      fun h => absurd hlt (not_lt.mpr h)⟩
  · rw [hlast hge]
    have hgone := s.completed_unqueued he hl (by simp [hk]) (by simp [hk])
    rw [hk] at hgone
    exact ⟨hyields, hdiscards, hsent, hrx, htable, s.completed_still,
      fun x hx => mem_admitOffers_of_mem s.tx.deferred s.tx.waiting x hx,
      fun h => absurd h (not_lt.mpr hge), fun _ => ⟨hgone, fun hd => (State.completed_outbox_of_nil hd).1, rfl⟩⟩

/-- The own STATE_REQ completes: sent, and the hold queue collects (R108). -/
theorem State.ownStateReq_completes {s : State} {e : Entry} (hr : s.inReset = false) (he : s.tx.Sends e)
    (hl : s.tx.Law) (hk : e.body.kind = .stateReq) {d : Option Tick} (hp : s.requester.phase = .requesting d) :
    exec .ownStateReqCompletes s = .next { s.completed with
      requester := { s.requester with phase := .requesting (some (s.tick + 96)), hold := [] } } := by
  have hphase : s.completed.requester.phase = .requesting d := hp
  simp only [exec, execOwnStateReqCompletes, ← hk, State.sends_of hr he hl, if_true, State.requestSent, hphase]
  rfl

/-- The own PRESENCE completes as a transmission only (R104). -/
theorem State.ownPresence_completes {s : State} {e : Entry} (hr : s.inReset = false) (he : s.tx.Sends e)
    (hl : s.tx.Law) (hk : e.body.kind = .presence) : exec .ownPresenceCompletes s = .next s.completed := by
  simp only [exec, execOwnPresenceCompletes, ← hk, State.sends_of hr he hl, if_true]

/-- Settles O39, kind by kind. -/
theorem ownSideFrameCompletes : Obligations.OwnSideFrameCompletes := by
  intro s e hr honline ho hmem hsending
  have he : s.tx.Sends e := ⟨honline, hmem, hsending⟩
  obtain ⟨-, hdiscards, hyields, hrx, hsent, htable, hcounters, -, hflags⟩ := s.completed_fields
  have hgone : ∀ k, e.body.kind = k → k ≠ .claim → k ≠ .close → s.completed.tx.queued k = false :=
    fun k hk hc hd => by subst hk; exact s.completed_unqueued he ho.1 hc hd
  refine ⟨fun hk tg b total next sent hp => State.ownState_completes hr he ho.1 hk hp, fun hk d hp => ?_,
    fun hk => ?_⟩
  · exact ⟨_, State.ownStateReq_completes hr he ho.1 hk hp, hyields, hdiscards, hsent, hrx, htable,
      hgone _ hk (by decide) (by decide), fun hd => (State.completed_outbox_of_nil hd).1, rfl⟩
  · exact ⟨_, State.ownPresence_completes hr he ho.1 hk, hyields, hdiscards, hsent, hrx, htable,
      hgone _ hk (by decide) (by decide), fun hd => (State.completed_outbox_of_nil hd).1, by simp, by simp,
      hcounters, hflags⟩

/-! ### PRESENCE and absence (R71, R101, R103) -/

/-- No kind comes after PRESENCE (R64). -/
theorem Kind.code_le_presence (k : Kind) : ¬Kind.presence.code < k.code := by
  cases k <;> decide

/-- A PRESENCE is the last of the kinds, so it is deferred at the end (R64, R71). -/
theorem insertOffer_presence (fp : Half) (bs : List Body) :
    insertOffer (.presence fp) bs = bs ++ [.presence fp] := by
  induction bs with
  | nil => rfl
  | cons b bs ih =>
    have hlast : ¬(Body.presence fp).kind.code < b.kind.code := Kind.code_le_presence b.kind
    rw [insertOffer, if_neg hlast, ih]
    rfl

/-- The offer of a PRESENCE by what stands: none while one does, else admitted or deferred (R70, R71). -/
theorem Transmitter.offer_presence (fp : Half) (t : Transmitter) : t.offer (.presence fp) =
    if t.queued .presence = true then t
    else if generalCount t.outbox < 6 then { t with outbox := insertEntry (Entry.fresh (.presence fp)) t.outbox }
    else { t with deferred := t.deferred ++ [.presence fp] } := by
  rw [← insertOffer_presence]
  rfl

/-- The test of a PRESENCE: offered where the station transmits and its tick is reached (R103). -/
theorem State.offerPresence_eq (s : State) : s.offerPresence =
    if s.transmits = true
        ∧ (s.tick - (s.lastSent + BitVec.ofNat 24 s.params.p.toNat)).toNat ≤ 8388607
      then { s with tx := s.tx.offer (.presence s.fingerprint) } else s := by
  have hreached : reached s.tick s.presenceTick = true ↔
      (s.tick - (s.lastSent + BitVec.ofNat 24 s.params.p.toNat)).toNat ≤ 8388607 := reached_iff _ _
  simp only [State.offerPresence, Bool.and_eq_true, hreached]
  split <;> rfl

/-- The test of an absence (R101). -/
theorem State.absent_iff {s : State} (hc : s.stepState ≠ .unconfigured) (a : Addr) : s.absent a = true ↔
    a ≠ s.addr ∧ (s.roster.entry a).presence ≠ .absent
      ∧ (s.tick - ((s.roster.entry a).heard + BitVec.ofNat 24 (4 * s.params.p.toNat))).toNat ≤ 8388607 := by
  have hreached := reached_iff s.tick (tickPlus (s.roster.entry a).heard (4 * s.params.p.toNat))
  simp only [State.absent, State.configured, Bool.and_eq_true, hreached, bne_iff_ne, ne_eq, hc, not_false_eq_true,
    true_and, and_assoc]
  rfl

/-- Settles O58: the offer by its cases, then the absences address by address. -/
theorem presenceAndAbsenceAreTimed : Obligations.PresenceAndAbsenceAreTimed := by
  intro s hr
  have hexec : exec .presenceDue s = .next s.offerPresence := by
    simp only [exec, execPresenceDue, State.unlessReset, hr]
    rfl
  have hoffer := s.offerPresence_eq
  rw [Transmitter.offer_presence] at hoffer
  refine ⟨fun ht hdue hq hroom => ?_, fun ht hdue hq hfull => ?_, fun hnone => ?_, fun hc => ?_⟩
  · rw [hexec, hoffer, if_pos ⟨ht, hdue⟩, if_neg (by simp [hq]), if_pos hroom]
  · rw [hexec, hoffer, if_pos ⟨ht, hdue⟩, if_neg (by simp [hq]), if_neg (not_lt.mpr hfull)]
  · rw [hexec, hoffer]
    rcases hnone with ht | hdue | hq
    · rw [if_neg (by simp [ht])]
    · rw [if_neg fun h => absurd h.2 (not_le.mpr hdue)]
    · rw [if_pos hq]
      split <;> rfl
  · have habsence : exec .absence s = .next s.markAbsent := by
      simp only [exec, execAbsence, State.unlessReset, hr]
      rfl
    have hstreak : ∀ a, hasAddr s.markAbsent.streak a = (hasAddr s.streak a && !s.absent a) :=
      hasAddr_dropAddrs s.absent s.streak
    refine ⟨_, habsence, rfl, fun a => ⟨fun hne hp hdue => ?_, fun hstays => ?_⟩⟩
    · have hgone : s.absent a = true := (State.absent_iff hc a).mpr ⟨hne, hp, hdue⟩
      exact ⟨by simp [State.markAbsent, hgone], by simp [hstreak, hgone]⟩
    · have hstill : s.absent a = false := by
        rw [← Bool.not_eq_true, State.absent_iff hc]
        rintro ⟨hne, hp, hdue⟩
        rcases hstays with h | h | h
        · exact hne h
        · exact hp h
        · omega
      exact ⟨by simp [State.markAbsent, hstill], by simp [hstreak, hstill]⟩

/-! ### The restart (R146, R147) -/

/-- Settles O30: the answer by the step state, then the two ways of the commit. -/
theorem restartIsAnsweredAndCommitted : Obligations.RestartIsAnsweredAndCommitted := by
  intro s
  refine ⟨fun htakes => ?_, fun hends hconflict => ?_, fun hends hstep hout => ?_⟩
  · simp only [exec, execRestartStation, State.taken_of_takesCommand _ _ _ htakes]
    cases hstate : s.stepState <;> simp only [State.askRestart, hstate] <;> rfl
  · simp only [exec, execRestartStationCommit, hends, hconflict, if_true]
  · have hgone : s.restart.statusGone = s.restart := by
      have hport : s.restart.port.statusOut = true := hout
      unfold State.statusGone
      rw [if_pos hport]
    simp only [exec, execRestartStationCommit, hends, hstep, if_true, if_false, State.trail, hgone]
    rfl

end Sys2Proof.Machine

/-! The frames that are no event's: PRESENCE, STATE_REQ and the STATE another responder sends (O52, O55, O56). -/

namespace Sys2Proof.Machine

/-- The acceptance of a frame that is no EPOCH leaves the tick counter (R44, R66). -/
theorem State.accept_tick_plain (h : Header) (carried : Option Half) (s : State) :
    (s.accept h carried false).tick = s.tick := by
  obtain ⟨-, htick, -⟩ := State.arrive_plain h carried s
  simpa [State.accept] using htick

/-! ### PRESENCE (R88, R98, R99, R104) -/

/-- Settles O52: the acceptance alone, as a PRESENCE has no owner beside the Step Monitor. -/
theorem presenceIsRecorded : Obligations.PresenceIsRecorded := by
  have hexec : ∀ (h : Header) (fp : Half) (s : State), s.receives = true →
      exec (.presenceAccepted h fp) s = .next (s.accept h (some fp) false) := fun h fp s hr => by
    simp only [exec, execPresenceAccepted, hr, if_true]
  refine ⟨fun h fp s hr ho hn => ?_, fun h fp s hr => ⟨_, hexec h fp s hr, ?_, by simp, ?_⟩⟩
  · rw [hexec h fp s hr, State.accept_records h fp s ho hn]
  · exact State.accept_tick_plain h (some fp) s
  · obtain ⟨-, hpresence, -⟩ := (Instr.Brings.presence fp).recorded (s.accept_recorded h (some fp) false)
    exact hpresence fp rfl

/-! ### STATE_REQ (R126) -/

/-- What a peer's request does to the responder: an answer delay, the latch, or nothing (R126). -/
theorem State.requestHeard_responder {a : Addr} {m : State} (ha : a ≠ m.addr) :
    (m.responder.phase = .idle → (m.requestHeard a).responder =
        { phase := .delay a (m.tick + BitVec.ofNat 24 (4 * (m.addr.toNat + 1))), latch := m.responder.latch })
      ∧ (∀ u e, m.responder.phase = .delay u e → (m.requestHeard a).responder =
          if u ≠ a ∧ m.responder.latch = none then { m.responder with latch := some a } else m.responder)
      ∧ (∀ u b n i q, m.responder.phase = .sending u b n i q → (m.requestHeard a).responder =
          if u ≠ a ∧ m.responder.latch = none then { m.responder with latch := some a } else m.responder) := by
  unfold State.requestHeard
  rw [if_neg ha]
  exact ⟨fun hp => by simp only [hp]; rfl, fun u e hp => by simp only [hp], fun u b n i q hp => by simp only [hp]⟩

/-- A request from the own address is no peer's (R67, R126). -/
theorem State.requestHeard_own (m : State) : m.requestHeard m.addr = m := by
  unfold State.requestHeard; rw [if_pos rfl]

/-- A frame whose in-step flag is clear is recorded, not voted on (R88). -/
theorem State.accept_not_inStep (h : Header) (carried : Option Half) (epoch : Bool) (s : State)
    (hi : h.inStep = false) : s.accept h carried epoch = s.arrive h carried epoch := by
  simp [State.accept, State.monitor, State.vote, State.votes, hi]

/-- The record of a frame that carries the own address leaves the roster (R67, R97). -/
theorem State.arrive_own_roster {h : Header} (carried : Option Half) {s : State} (ha : h.sender = s.addr) :
    (s.arrive h carried false).roster = s.roster := by
  simp [State.arrive, State.record, ha, State.receiverDone, State.lineBusy]

/-- Settles O55: the acceptance, then the responder of a station IN_STEP. -/
theorem requestsAreAnsweredOrLatched : Obligations.RequestsAreAnsweredOrLatched := by
  intro h fp k s hr
  have hexec : exec (.stateReqAccepted h fp k) s = .next ((s.accept h (some fp) false).ownStateReq h) := by
    simp only [exec, execStateReqAccepted, hr, if_true]
  refine ⟨fun hi ho hn => ?_, fun hi ho hn => ?_, ?_, fun hi hflag hown => ?_⟩
  · have hheard := State.requestHeard_responder (m := s.accept h (some fp) false) (by simpa using hn)
    rw [State.accept_records h fp s ho hn] at hexec hheard
    rw [State.ownStateReq, if_pos hi] at hexec
    refine ⟨_, hexec, by simp, by simpa using hi, by simp, by simp, by simp, by simp, by simp, ?_, hheard⟩
    simp [hi]
  · rw [State.accept_records h fp s ho hn, State.ownStateReq, if_neg hi] at hexec
    exact ⟨_, hexec, rfl⟩
  · have hrec := (s.accept_recorded h (some fp) false).ownStateReq h
    obtain ⟨htested, -, -⟩ := (Instr.Brings.stateReq fp k).recorded hrec
    exact ⟨_, hexec, by simpa using State.accept_tick_plain h (some fp) s, htested fp k rfl⟩
  · have hreq : (s.accept h (some fp) false).ownStateReq h = s.arrive h (some fp) false := by
      rw [State.accept_not_inStep h _ _ s hflag, State.ownStateReq, hown]
      split
      · have haddr : (s.arrive h (some fp) false).addr = s.addr := by simp
        rw [← haddr, State.requestHeard_own]
      · rfl
    rw [hreq] at hexec
    obtain ⟨-, -, htx, -, -, -, -, hresponder, -⟩ := State.arrive_plain h (some fp) s
    obtain ⟨hclash, -⟩ := State.arrive_facts h (some fp) false s _ rfl
    exact ⟨_, hexec, hresponder, State.arrive_own_roster _ hown, by simp, by rw [htx],
      by rw [hclash, hown]; simp⟩

/-! ### A peer's STATE (R127, R176) -/

/-- The station after the first effect of a header: a latch that holds the target is emptied (R127). -/
def State.latchEmptied (target : Addr) (m : State) : State :=
  { m with responder := { m.responder with
      latch := if m.responder.latch = some target then none else m.responder.latch } }

@[simp] theorem State.latchEmptied_phase (target : Addr) (m : State) :
    (m.latchEmptied target).responder.phase = m.responder.phase := rfl

@[simp] theorem State.latchEmptied_tx (target : Addr) (m : State) : (m.latchEmptied target).tx = m.tx := rfl

theorem State.latchEmptied_eq (target : Addr) (m : State) :
    (if m.responder.latch = some target then { m with responder := { m.responder with latch := none } } else m)
      = m.latchEmptied target := by
  unfold State.latchEmptied
  split <;> rfl

/-- The latch is taken unless it holds the target that has just been served (R127). -/
theorem State.takeLatch_latchEmptied (target : Addr) (m : State) : (m.latchEmptied target).takeLatch.responder =
    (match m.responder.latch with
      | some a => if a = target then Responder.idle else { phase := .delay a m.delayEnd, latch := none }
      | none => Responder.idle) := by
  cases hlatch : m.responder.latch with
  | none => simp [State.takeLatch, State.latchEmptied, hlatch]
  | some a => by_cases ha : a = target <;> simp [State.takeLatch, State.latchEmptied, hlatch, ha, State.delayEnd]

/-- A header for the target finds the responder that has not sent its own: it stands down, its STATE is
withdrawn, and it takes its latch unless that holds the target too (R127). -/
theorem State.headerHeard_stands_down {target : Addr} {m : State}
    (hp : (∃ e, m.responder.phase = .delay target e)
      ∨ ∃ b n i, m.responder.phase = .sending target b n i false) :
    (m.headerHeard target).tx =
        (if m.responder.phase.isSending = true then m.tx.withdraw (Body.isKind .state) else m.tx)
      ∧ (m.headerHeard target).responder =
        (match m.responder.latch with
          | some a => if a = target then Responder.idle else { phase := .delay a m.delayEnd, latch := none }
          | none => Responder.idle) := by
  have hlatch := m.takeLatch_latchEmptied target
  unfold State.headerHeard
  rw [State.latchEmptied_eq]
  rcases hp with ⟨e, hp⟩ | ⟨b, n, i, hp⟩
  · simp only [State.latchEmptied_phase, hp, if_true]
    exact ⟨by simp [ResponderPhase.isSending], hlatch⟩
  · simp only [State.latchEmptied_phase, hp, if_true]
    exact ⟨by simp [ResponderPhase.isSending, State.withdraw], hlatch⟩

/-- Every other responder only empties a latch that holds the target (R127). -/
theorem State.headerHeard_stays {target : Addr} {m : State}
    (hp : m.responder.phase = .idle ∨ (∃ u e, m.responder.phase = .delay u e ∧ u ≠ target)
      ∨ ∃ u b n i q, m.responder.phase = .sending u b n i q ∧ (u ≠ target ∨ q = true)) :
    m.headerHeard target = m.latchEmptied target := by
  unfold State.headerHeard
  rw [State.latchEmptied_eq]
  rcases hp with hp | ⟨u, e, hp, hu⟩ | ⟨u, b, n, i, q, hp, hu⟩
  · simp only [State.latchEmptied_phase, hp]
  · simp only [State.latchEmptied_phase, hp, if_neg hu]
  · cases q with
    | false => simp only [State.latchEmptied_phase, hp, if_neg (hu.resolve_right (by decide))]
    | true => simp only [State.latchEmptied_phase, hp]

/-- The body of a header for the target, as a STATE frame carries it (R64, R127, R176). -/
theorem readStateBody_of_targets {target : Addr} {body : List Byte} (h : stateBodyTargets target body = true) :
    Kind.lengthOk .state body.length = true
      ∧ ∃ total payload, readStateBody body = some ⟨addrByte target, 0, total, payload⟩ := by
  simp only [stateBodyTargets, Bool.and_eq_true, beq_iff_eq] at h
  obtain ⟨⟨hlength, htarget⟩, hindex⟩ := h
  refine ⟨hlength, ?_⟩
  match body with
  | [] | [_] | [_, _] => simp [Kind.lengthOk] at hlength
  | t :: i :: n :: rest =>
    simp only [List.getD_cons_zero, List.getD_cons_succ] at htarget hindex
    exact ⟨n, rest, by rw [readStateBody, htarget, hindex]; rfl⟩

theorem byteAddr_addrByte (a : Addr) : byteAddr (addrByte a) = some a := by
  have hlt := a.isLt
  simp [byteAddr, addrByte]
  omega

/-- A STATE that is no header, or whose target is no address, is nothing to the responder (R127, R176). -/
theorem State.ownState_ignored (h : Header) {body : List Byte} {m : State} (hi : m.stepState = .inStep)
    (hb : body.getD 1 0 ≠ 0#8 ∨ 15 < (body.getD 0 0).toNat) : m.ownState h body = m := by
  unfold State.ownState
  match body with
  | [] | [_] | [_, _] => rfl
  | t :: i :: n :: rest =>
    simp only [List.getD_cons_zero, List.getD_cons_succ] at hb
    simp only [readStateBody, hi, State.responderState]
    rcases hb with hindex | htarget
    · exact if_neg hindex
    · simp [byteAddr, not_le.mpr htarget]

/-- At a station IN_STEP a header for a target goes to the responder (R127). -/
theorem State.ownState_heard (h : Header) {target : Addr} {body : List Byte} {m : State}
    (hi : m.stepState = .inStep) (hb : stateBodyTargets target body = true) :
    m.ownState h body = m.headerHeard target := by
  obtain ⟨-, total, payload, hread⟩ := readStateBody_of_targets hb
  simp only [State.ownState, hread, hi, State.responderState, if_true, byteAddr_addrByte]

/-- Settles O56: what the owner finds is the accepted frame, and then the responder's two ways. -/
theorem responderStandsDown : Obligations.ResponderStandsDown := by
  have hexec : ∀ (h : Header) (body : List Byte) (s : State), s.receives = true →
      Kind.lengthOk .state body.length = true →
      exec (.stateAccepted h body) s = .next ((s.accept h none false).ownState h body) :=
    fun h body s hr hw => by simp only [exec, execStateAccepted, hr, hw, if_true]
  refine ⟨fun h target body s hr hi hk hl hb => ?_, fun h body s hr hi hk hw hb => ?_⟩
  · have hm := hk.acceptedQuietly
    obtain ⟨-, -, -, -, -, haddr⟩ := hk.accept
    obtain ⟨hw, -⟩ := readStateBody_of_targets hb
    have hstep := hm.stepState.trans hi
    have hstill : ({ s.tx with recessive := 0 } : Transmitter).Still := hl.still (State.receives_onLine hr)
    have hrec := hm.recorded.ownState h body fun ho => by rw [hstep] at ho; cases ho
    rw [State.ownState_heard h hstep hb] at hrec
    have hends : (s.accept h none false).delayEnd = s.tick + BitVec.ofNat 24 (4 * (s.addr.toNat + 1)) := by
      rw [State.delayEnd, hm.tick, haddr]; rfl
    refine ⟨_, by rw [hexec h body s hr hw, State.ownState_heard h hstep hb], by simp [hm.table],
      by simpa using hstep, hrec, fun hp => ?_, fun hp => ?_⟩
    · obtain ⟨htx, hresponder⟩ := State.headerHeard_stands_down (by rw [hm.responder]; exact hp)
      rw [hm.responder, hm.tx] at htx
      rw [hm.responder, hends] at hresponder
      refine ⟨?_, hresponder⟩
      rw [htx]
      rcases hp with ⟨e, hp⟩ | ⟨b, n, i, hp⟩
      · simp only [hp]; rfl
      · simp only [hp]; exact hstill.withdraw_queued_named .state fun _ hb => hb
    · rw [State.headerHeard_stays (by rw [hm.responder]; exact hp)]
      exact ⟨by simp [State.latchEmptied, hm.tx], by simp [State.latchEmptied, hm.responder]⟩
  · have hm := hk.acceptedQuietly
    refine ⟨_, by rw [hexec h body s hr hw, State.ownState_ignored h (hm.stepState.trans hi) hb], hm.table,
      hm.stepState.trans hi, by rw [hm.tx], by rw [hm.tx], hm.responder, hm.recorded⟩

end Sys2Proof.Machine

/-! The decision on a TRIG edge (O21). -/

namespace Sys2Proof.Machine

/-- The edge lies in the hold-off of a trigger claimed before (R80). -/
theorem State.inHoldOff_iff (s : State) : s.inHoldOff = true ↔
    ∃ l, s.lastClaimed = some l ∧ (s.tick - l).toNat ≤ s.params.h.toNat := by
  unfold State.inHoldOff
  cases s.lastClaimed <;> simp

/-- The station takes no edge into account: it is not IN_STEP, or DISARMED (R79). -/
abbrev State.IgnoresEdges (s : State) : Prop := s.stepState ≠ .inStep ∨ s.armed = false

theorem State.decideEdge_ignored {s : State} (h : s.IgnoresEdges) : s.decideEdge = s.rise .trigIgnored 1 :=
  if_pos h

theorem State.decideEdge_merged {s : State} (h : ¬s.IgnoresEdges) (hm : s.inHoldOff = true) :
    s.decideEdge = s.rise .trigMerged 1 :=
  (if_neg h).trans (if_pos hm)

theorem State.decideEdge_claimed {s : State} (h : ¬s.IgnoresEdges) (hm : ¬s.inHoldOff = true)
    (hg : generalCount s.tx.outbox < 6) :
    s.decideEdge = { s.admitEntry (.claim s.tick s.table.epoch) with lastClaimed := some s.tick } :=
  (if_neg h).trans ((if_neg hm).trans (if_pos hg))

theorem State.decideEdge_refused {s : State} (h : ¬s.IgnoresEdges) (hm : ¬s.inHoldOff = true)
    (hg : ¬generalCount s.tx.outbox < 6) :
    s.decideEdge = (s.rise .claimsRefused 1).setFlag .claimRefused :=
  (if_neg h).trans ((if_neg hm).trans (if_neg hg))

/-- Settles O21: the count, which no test reads, then the tests in their order. -/
theorem trigEdgeIsDecided : Obligations.TrigEdgeIsDecided := by
  intro s hr
  have hexec : exec .trigEdge s = .next (s.rise .trigSeen 1).decideEdge := by
    simp [exec, execTrigEdge, State.unlessReset, hr]
  have hholdOff := (s.rise .trigSeen 1).inHoldOff_iff
  rw [hexec]
  split
  next hignored => exact congrArg _ (State.decideEdge_ignored hignored)
  next hheard =>
  split
  next hmerged => exact congrArg _ (State.decideEdge_merged hheard (hholdOff.mpr hmerged))
  next hfresh =>
  have hnot := mt hholdOff.mp hfresh
  split
  next hroom => exact congrArg _ (State.decideEdge_claimed hheard hnot hroom)
  next hfull => exact congrArg _ (State.decideEdge_refused hheard hnot hfull)

end Sys2Proof.Machine

/-! The board side of the station under the commands of the pins, the line, the frames and the ticks (O10). -/

namespace Sys2Proof.Machine

/-! ### What the board side keeps (R77, R136, R138, R163, R166) -/

/-- The straps, the configuration, the arm state, the stage buffer, the reset, the level of CSn and the queue. -/
def State.boardParts (s : State) : Bool × Bool × Addr × BitVec 2 × Params × Half × Bool × Option (List Byte)
    × List Instr :=
  (s.inReset, s.csnHigh, s.addr, s.rate, s.params, s.fingerprint, s.armed, s.stage, s.pending)

/-- The board side is untouched, but that a newly set flag may have been noted (R163). -/
structure State.BoardKept (s t : State) : Prop where
  parts : t.boardParts = s.boardParts
  port : t.port = { s.port with fresh := t.port.fresh }
  fresh : s.port.fresh = true → t.port.fresh = true
  attention : s.attention = true → t.attention = true

theorem State.BoardKept.refl (s : State) : s.BoardKept s := ⟨rfl, rfl, id, id⟩

theorem State.BoardKept.trans {s t u : State} (h : s.BoardKept t) (g : t.BoardKept u) : s.BoardKept u :=
  ⟨g.parts.trans h.parts, by rw [g.port, h.port], g.fresh ∘ h.fresh, g.attention ∘ h.attention⟩

/-- The board side as it stands: those parts, the port, and the attention bit. -/
def State.boardView (s : State) := (s.boardParts, s.port, s.attention)

@[simp] theorem State.boardView_eq_iff (s t : State) : t.boardView = s.boardView ↔
    t.inReset = s.inReset ∧ t.csnHigh = s.csnHigh ∧ t.addr = s.addr ∧ t.rate = s.rate ∧ t.params = s.params
      ∧ t.fingerprint = s.fingerprint ∧ t.armed = s.armed ∧ t.stage = s.stage ∧ t.pending = s.pending
      ∧ t.port = s.port ∧ t.attention = s.attention := by
  simp [State.boardView, State.boardParts, and_assoc]

/-- An operation that sets no flag touches neither the port nor the attention bit. -/
theorem State.BoardKept.of_same {s t : State} (h : t.boardView = s.boardView) : s.BoardKept t := by
  simp only [State.boardView, Prod.mk.injEq] at h
  obtain ⟨hparts, hport, hattention⟩ := h
  exact ⟨hparts, by rw [hport], by rw [hport]; exact id, by rw [hattention]; exact id⟩

/-- An operation followed by one that touches nothing of the board side. -/
theorem State.BoardKept.then {s t u : State} (h : s.BoardKept t) (hsame : u.boardView = t.boardView) :
    s.BoardKept u := h.trans (.of_same hsame)

/-- An operation that comes after one that touches nothing of the board side. -/
theorem State.BoardKept.after {s t u : State} (g : t.BoardKept u) (hsame : t.boardView = s.boardView) :
    s.BoardKept u := (State.BoardKept.of_same hsame).trans g

theorem State.BoardKept.withdraw {s t : State} (h : s.BoardKept t) (p : Body → Bool) :
    s.BoardKept (t.withdraw p) := h.then rfl

theorem State.BoardKept.ite {c : Prop} [Decidable c] {s t u : State} (ht : s.BoardKept t) (hu : s.BoardKept u) :
    s.BoardKept (if c then t else u) := by
  split
  · exact ht
  · exact hu

theorem State.unlessReset_boardKept {s : State} {f : State → State} (hf : s.BoardKept (f s)) :
    s.BoardKept (s.unlessReset f) := .ite (.refl s) hf

/-! ### Flags, orders and ordered frames -/

theorem State.setFlags_boardKept (m : BitVec 9) (s : State) : s.BoardKept (s.setFlags m) :=
  ⟨rfl, rfl, fun h => by simp [h], fun h => by simp [h]⟩

theorem State.setFlag_boardKept (f : Flag) (s : State) : s.BoardKept (s.setFlag f) := s.setFlags_boardKept _

theorem State.setFlagIf_boardKept (b : Bool) (f : Flag) (s : State) : s.BoardKept (s.setFlagIf b f) :=
  s.setFlags_boardKept _

theorem State.offerOrder_boardKept (o : Order) (s : State) : s.BoardKept (s.offerOrder o) := by
  unfold State.offerOrder
  split
  · exact .refl s
  · exact .after (State.setFlag_boardKept _ _) rfl
  · exact .after (State.setFlag_boardKept _ _) rfl
  · exact .of_same rfl

theorem State.applyClose_boardKept (a : Addr) (n : Half) (s : State) : s.BoardKept (s.applyClose a n) := by
  unfold State.applyClose
  split
  · exact .of_same rfl
  · dsimp only
    split
    · refine State.BoardKept.withdraw ?_ _
      exact .after (State.offerOrder_boardKept _ _) rfl
    · exact .of_same rfl

theorem State.applyFrame_boardKept (a : Addr) (body : Sequenced) (s : State) :
    s.BoardKept (s.applyFrame a body) := by
  cases body with
  | claim stamp epoch => exact .of_same (by simp [State.applyFrame])
  | close n => exact .after (State.applyClose_boardKept _ _ _) rfl
  | epoch => exact .of_same (by simp [State.applyFrame])

theorem State.applyHeld_boardKept (fs : List Held) (s : State) : s.BoardKept (s.applyHeld fs) := by
  induction fs generalizing s with
  | nil => exact .refl s
  | cons f fs ih => exact (s.applyFrame_boardKept f.sender f.body).trans (ih _)

theorem State.flushOrders_boardKept (s : State) : s.BoardKept s.flushOrders :=
  (s.setFlagIf_boardKept (!s.orders.isEmpty) .ordersFlushed).then rfl

theorem State.applyClear_boardKept (s : State) : s.BoardKept s.applyClear := by
  have hflushed : s.BoardKept (State.flushOrders
      { s.rise .framesApplied 1 with table := s.table.cleared s.fingerprint, streak := 0 }) :=
    .after (State.flushOrders_boardKept _) rfl
  exact hflushed.then (by simp [State.applyClear])

/-! ### The requester (R107 to R124, R132) -/

theorem State.selfAssert_boardKept (s : State) : s.BoardKept s.selfAssert :=
  (s.setFlag_boardKept .selfAsserted).then rfl

theorem State.fail_boardKept (k : FailKind) (s : State) : s.BoardKept (s.fail k) := by
  obtain ⟨hnext, hassert, hwait⟩ := s.fail_cases k
  by_cases hlt : unansweredAfter k s.requester.unanswered < 4
  · rw [hnext hlt]; exact .of_same (by simp [State.failed])
  · cases ha : s.selfAsserts with
    | false => rw [hwait (not_lt.mp hlt) ha]; exact .of_same rfl
    | true =>
      rw [hassert (not_lt.mp hlt) ha]
      exact .after (State.selfAssert_boardKept _) rfl

theorem State.holdFrame_boardKept (a : Addr) (body : Sequenced) (n : Half) (s : State) :
    s.BoardKept (s.holdFrame a body n) := by
  unfold State.holdFrame
  (repeat' split)
  · exact .of_same rfl
  · exact s.fail_boardKept _
  · exact .refl s

theorem State.clearOutOfStep_boardKept (tick : Tick) (epoch : Byte) (s : State) :
    s.BoardKept (s.clearOutOfStep tick epoch) := by
  have hcleared : s.BoardKept
      (({ s with requester := Requester.idle }.withdraw (Body.isKind .stateReq)).applyClear) :=
    .after (State.applyClear_boardKept _) rfl
  exact hcleared.then (by simp [State.clearOutOfStep])

theorem State.enterConflict_boardKept (s : State) : s.BoardKept s.enterConflict :=
  (s.setFlag_boardKept .conflict).then rfl

theorem State.install_boardKept (h : SnapHeader) (records : List EventRecord) (s : State) :
    s.BoardKept (s.install h records) := by
  unfold State.install
  split
  next => exact s.fail_boardKept _
  next marked _ =>
    have happlied : s.BoardKept (State.applyHeld marked { s with table := installedTable h records }) :=
      .after (State.applyHeld_boardKept _ _) rfl
    exact happlied.then rfl

theorem State.examineHeader_boardKept (a : Addr) (n : Nat) (b : StateBody) (s : State) :
    s.BoardKept (s.examineHeader a n b) := by
  unfold State.examineHeader
  split
  · exact s.enterConflict_boardKept
  split
  · exact s.fail_boardKept _
  split
  · exact .ite (.after (State.install_boardKept _ _ _) rfl) (.of_same rfl)
  · exact s.fail_boardKept _

theorem State.takeChunk_boardKept (c : Receiving) (n : Nat) (b : StateBody) (s : State) :
    s.BoardKept (s.takeChunk c n b) := by
  unfold State.takeChunk
  split
  · exact s.fail_boardKept _
  split
  · exact s.fail_boardKept _
  split
  · exact s.fail_boardKept _
  split
  · exact s.fail_boardKept _
  · exact .ite (s.install_boardKept _ _) (.of_same rfl)

theorem State.requesterState_boardKept (a : Addr) (n : Nat) (b : StateBody) (s : State) :
    s.BoardKept (s.requesterState a n b) := by
  unfold State.requesterState
  split
  · exact .refl s
  split
  · exact .ite (s.examineHeader_boardKept a n b) (.refl s)
  · exact .ite (s.takeChunk_boardKept _ n b) (.refl s)
  · exact .refl s

/-! ### Acceptances (R66) -/

theorem State.enterOutOfStep_boardKept (s : State) : s.BoardKept s.enterOutOfStep := .of_same (by simp)

theorem State.leaveStep_boardKept (s : State) : s.BoardKept s.leaveStep :=
  (s.setFlag_boardKept .leftStep).trans (State.enterOutOfStep_boardKept _)

theorem State.vote_boardKept (h : Header) (s : State) : s.BoardKept (s.vote h) := by
  obtain ⟨t, ht⟩ : ∃ t, t = s.vote h := ⟨_, rfl⟩
  have hcases := s.vote_cases h
  rw [← ht] at hcases ⊢
  rcases hcases with hq | ⟨hleaves, -⟩
  · cases hq with
    | noVote => exact .refl s
    | agree => exact .of_same rfl
    | below => exact .of_same rfl
    | diverged =>
      have hcounted : s.BoardKept (s.countDisagreement h.sender) := .of_same rfl
      exact (hcounted.trans (State.setFlag_boardKept .diverged _)).then rfl
  · rw [hleaves]
    exact .after (State.leaveStep_boardKept _) rfl

theorem State.arrive_boardKept (h : Header) (carried : Option Half) (epoch : Bool) (s : State) :
    s.BoardKept (s.arrive h carried epoch) := by
  have hclash : s.BoardKept (s.receiverDone.setFlagIf (h.sender == s.addr) .addressClash) :=
    .after (State.setFlagIf_boardKept _ _ _) rfl
  cases epoch with
  | false => exact hclash.then rfl
  | true => exact hclash.then (by simp [State.arrive])

theorem State.monitor_boardKept (h : Header) (s : State) : s.BoardKept (s.monitor h) := by
  unfold State.monitor
  split
  · exact .ite (.of_same (by simp)) (.refl _)
  · exact s.vote_boardKept h

theorem State.accept_boardKept (h : Header) (carried : Option Half) (epoch : Bool) (s : State) :
    s.BoardKept (s.accept h carried epoch) := by
  unfold State.accept
  exact (s.arrive_boardKept h carried epoch).trans (State.monitor_boardKept h _)

theorem State.ownSequenced_boardKept (h : Header) (body : Sequenced) (s : State) :
    s.BoardKept (s.ownSequenced h body) := by
  unfold State.ownSequenced
  split
  · exact s.applyFrame_boardKept _ _
  · exact s.applyFrame_boardKept _ _
  · exact s.holdFrame_boardKept _ _ _
  all_goals exact .refl s

theorem State.ownClear_boardKept (tick : Tick) (epoch : Byte) (s : State) :
    s.BoardKept (s.ownClear tick epoch) := by
  unfold State.ownClear
  split
  · exact s.applyClear_boardKept
  · exact s.applyClear_boardKept
  · exact s.clearOutOfStep_boardKept _ _
  all_goals exact .refl s

theorem State.ownState_boardKept (h : Header) (body : List Byte) (s : State) :
    s.BoardKept (s.ownState h body) := by
  unfold State.ownState
  split
  · exact .refl s
  split
  · exact s.requesterState_boardKept _ _ _
  · exact .of_same (by simp)
  all_goals exact .refl s

/-! ### Transmissions (R56 to R61) -/

theorem State.returnEntry_boardKept (e : Entry) (f : Entry → Entry) (s : State) :
    s.BoardKept (s.returnEntry e f) := .of_same (by simp)

theorem State.loseArbitration_boardKept (e : Entry) (s : State) : s.BoardKept (s.loseArbitration e) :=
  .of_same (by simp)

theorem State.enterMute_boardKept (s : State) : s.BoardKept s.enterMute :=
  (s.setFlag_boardKept .muted).then rfl

theorem State.discard_boardKept (e : Entry) (s : State) : s.BoardKept (s.discard e) := by
  unfold State.discard
  exact .ite (.after (State.enterMute_boardKept _) rfl) (.of_same (by simp))

theorem State.bitError_boardKept (e : Entry) (s : State) : s.BoardKept (s.bitError e) := by
  unfold State.bitError
  have hbroken : s.BoardKept (s.driveBreak.rise .txAborts 1) := .of_same (by simp)
  exact .ite (hbroken.trans (State.discard_boardKept e _)) (hbroken.trans (State.returnEntry_boardKept e _ _))

/-- The completion of an own ordered frame, `f` being what comes before its application. -/
theorem State.completeSequenced_boardKept (k : Kind) (f : State → State) (hf : ∀ x : State, x.BoardKept (f x))
    (s : State) : s.BoardKept (s.completeSequenced k f) := by
  have hdone : s.BoardKept (f s.completed) := .after (hf _) rfl
  unfold State.completeSequenced
  split
  · split
    · exact .ite (hdone.trans (State.applyFrame_boardKept _ _ _)) hdone
    · exact .refl s
  · exact .refl s

/-! ### Ticks (R74) and edges (R79) -/

theorem State.testRequest_boardKept (s : State) : s.BoardKept s.testRequest := by
  unfold State.testRequest
  split
  · exact .ite (s.fail_boardKept _) (.refl s)
  · exact .refl s

theorem State.testChunk_boardKept (s : State) : s.BoardKept s.testChunk := by
  unfold State.testChunk
  split
  · exact .ite (s.fail_boardKept _) (.refl s)
  · exact .refl s

theorem State.offerTick_boardKept (s : State) : s.BoardKept s.offerTick := by
  have hfirst : s.BoardKept s.testExpiry.scheduleCloses.offerPresence.markAbsent := .of_same (by simp)
  have hresync := (hfirst.trans (State.testRequest_boardKept _)).trans (State.testChunk_boardKept _)
  exact hresync.then (by simp [State.offerTick])

theorem State.decideEdge_boardKept (s : State) : s.BoardKept s.decideEdge := by
  unfold State.decideEdge State.claimEdge
  exact .ite (.of_same rfl) (.ite (.of_same rfl) (.ite (.of_same rfl)
    (.after (State.setFlag_boardKept .claimRefused _) rfl)))

/-! ### Every command -/

/-- A command that does not come over the board port, and is no reset, keeps the board side. -/
theorem exec_boardKept (c : Instr) {s t : State} (hc : c.boardSide = false) (h : exec c s = .next t)
    (hpin : c ≠ .pinReset) (hrelease : ∀ a r, c ≠ .resetRelease a r) : s.BoardKept t := by
  have hcompleted : s.BoardKept s.completed := .of_same rfl
  cases c with
  | pinReset => exact absurd rfl hpin
  | resetRelease addr rate => exact absurd rfl (hrelease addr rate)
  | refArrival =>
    cases h
    exact State.unlessReset_boardKept (.ite (.after (State.offerTick_boardKept _) rfl) (.refl s))
  | trigEdge =>
    cases h
    exact State.unlessReset_boardKept (.after (State.decideEdge_boardKept _) rfl)
  | transmissionStart recessive => cases h; exact .of_same (by simp)
  | arbitrationLoss =>
    cases h
    split
    · split
      · exact s.loseArbitration_boardKept _
      · exact .refl s
    · exact .refl s
  | bitError =>
    cases h
    split
    · split
      · exact s.bitError_boardKept _
      · exact .refl s
    · exact .refl s
  | deferredOfferAdmitted => cases h; exact State.unlessReset_boardKept (.of_same rfl)
  | ownClaimCompletes => cases h; exact s.completeSequenced_boardKept _ (State.rise _ _) fun _ => .of_same rfl
  | ownCloseCompletes => cases h; exact s.completeSequenced_boardKept _ _ .refl
  | ownEpochCompletes =>
    cases h
    exact s.completeSequenced_boardKept _ State.epochArrival fun _ => .of_same (by simp)
  | ownClearCompletes =>
    cases h
    exact .ite (.ite (hcompleted.trans (State.applyClear_boardKept _)) hcompleted) (.refl s)
  | ownStateCompletes => cases h; exact .ite (hcompleted.then (by simp)) (.refl s)
  | ownStateReqCompletes => cases h; exact .ite (hcompleted.then (by simp)) (.refl s)
  | ownPresenceCompletes => cases h; exact .ite hcompleted (.refl s)
  | frameDiscarded fault => cases h; exact .ite (.of_same rfl) (.refl s)
  | claimAccepted h' stamp epoch =>
    cases h
    exact .ite ((s.accept_boardKept _ _ _).trans (State.ownSequenced_boardKept _ _ _)) (.refl s)
  | closeAccepted h' number =>
    cases h
    exact .ite ((s.accept_boardKept _ _ _).trans (State.ownSequenced_boardKept _ _ _)) (.refl s)
  | clearAccepted h' tick epoch =>
    cases h
    exact .ite ((s.accept_boardKept _ _ _).trans (State.ownClear_boardKept _ _ _)) (.refl s)
  | epochAccepted h' =>
    cases h
    exact .ite ((s.accept_boardKept _ _ _).trans (State.ownSequenced_boardKept _ _ _)) (.refl s)
  | stateAccepted h' body =>
    cases h
    exact .ite (.ite ((s.accept_boardKept _ _ _).trans (State.ownState_boardKept _ _ _)) (.of_same rfl)) (.refl s)
  | stateReqAccepted h' fingerprint attempt =>
    cases h
    exact .ite ((s.accept_boardKept h' (some fingerprint) false).then (by simp)) (.refl s)
  | presenceAccepted h' fingerprint => cases h; exact .ite (s.accept_boardKept _ _ _) (.refl s)
  | closeDueReached => cases h; exact State.unlessReset_boardKept (.of_same rfl)
  | claimExpiry => cases h; exact State.unlessReset_boardKept (.of_same rfl)
  | presenceDue => cases h; exact State.unlessReset_boardKept (.of_same rfl)
  | absence => cases h; exact State.unlessReset_boardKept (.of_same rfl)
  | requestDeadline => cases h; exact State.unlessReset_boardKept s.testRequest_boardKept
  | chunkDeadline => cases h; exact State.unlessReset_boardKept s.testChunk_boardKept
  | retryTick => cases h; exact State.unlessReset_boardKept (.of_same (by simp))
  | answerDelayEnd => cases h; exact State.unlessReset_boardKept (.of_same (by simp))
  | listeningEnd => cases h; exact State.unlessReset_boardKept (.of_same (by simp))
  | lineIdle => cases h; exact .ite (.of_same rfl) (.refl s)
  | startBitTaken => cases h; exact .ite (.of_same rfl) (.refl s)
  | breakEnd => cases h; exact .ite (.of_same rfl) (.refl s)
  | _ => cases hc

/-- Settles O10: the parts that every such command keeps, read one by one. -/
theorem busSideLeavesTheBoardSide : Obligations.BusSideLeavesTheBoardSide := by
  intro c s t hc h hpin hrelease
  obtain ⟨hparts, hport, hfresh, hattention⟩ := exec_boardKept c hc h hpin hrelease
  simp only [State.boardParts, Prod.mk.injEq] at hparts
  obtain ⟨hreset, hcsn, haddr, hrate, hparams, hfingerprint, harmed, hstage, hpending⟩ := hparts
  exact ⟨hreset, hcsn, haddr, hrate, hparams, hfingerprint, harmed, hstage, hpending, hport, hfresh, hattention⟩

end Sys2Proof.Machine

/-! Snapshot headers at a station that waits for one (O53). -/

namespace Sys2Proof.Machine

/-! ### The header read back (R176) -/

theorem tick24_be24 (x : Tick) :
    tick24 (x.extractLsb' 16 8) (x.extractLsb' 8 8) (x.extractLsb' 0 8) = x := by
  refine BitVec.eq_of_getLsbD_eq fun i hi => ?_
  rw [tick24, BitVec.getLsbD_append, BitVec.getLsbD_append]
  by_cases hlow : i < 8
  · simp [hlow]
  · by_cases hmid : i - 8 < 8
    · simp [hlow, hmid, show 8 + (i - 8) = i by omega]
    · simp [hlow, hmid, show i - 8 - 8 < 8 by omega, show 16 + (i - 8 - 8) = i by omega]

theorem SnapHeader.payload_length (hd : SnapHeader) (tick : Tick) : (hd.payload tick).length = 17 := rfl

theorem readSnapHeader_payload (hd : SnapHeader) (tick : Tick) (ho : hd.openCount < 256)
    (hh : hd.historyCount < 256) : readSnapHeader (hd.payload tick) = some (hd, tick) := by
  simp [SnapHeader.payload, be16, be24, readSnapHeader, half_be16, tick24_be24, Nat.mod_eq_of_lt, ho, hh]

theorem payloadFingerprint_payload (hd : SnapHeader) (tick : Tick) :
    payloadFingerprint (hd.payload tick) = hd.fingerprint := half_be16 hd.fingerprint

/-- What is read of a header stands in its places, and a header is 17 bytes long. -/
theorem readSnapHeader_fields {payload : List Byte} {hd : SnapHeader} {tick : Tick}
    (h : readSnapHeader payload = some (hd, tick)) :
    payload.length = 17 ∧ hd.openCount = (payload.getD 7 0).toNat
      ∧ hd.historyCount = (payload.getD 8 0).toNat := by
  unfold readSnapHeader at h
  split at h
  next => cases h; exact ⟨rfl, rfl, rfl⟩
  next => cases h

/-! ### The station that has recorded a STATE frame out of step (R66, R67, R98) -/

/-- The station `m` has taken a frame that is no EPOCH's from the line and recorded it, and is OUT_OF_STEP as
before: what the requester finds. -/
structure State.ArrivedOutOfStep (h : Header) (s m : State) : Prop where
  core : m.SameCore s
  stepState : m.stepState = .outOfStep
  tick : m.tick = s.tick
  tx : m.tx = { s.tx with recessive := 0 }
  requester : m.requester = s.requester
  responder : m.responder = s.responder
  fingerprint : m.fingerprint = s.fingerprint
  stage : m.stage = s.stage
  streak : m.streak = s.streak
  flags : m.flags = if h.sender = s.addr then s.flags ||| 0x100#9 else s.flags
  recorded : s.RecordedPlain h m

theorem State.arrive_flags (h : Header) (carried : Option Half) (s : State) :
    (s.arrive h carried false).flags = if h.sender = s.addr then s.flags ||| 0x100#9 else s.flags := by
  by_cases hown : h.sender = s.addr
  · simp [State.arrive, State.setFlagIf, Flag.mask, hown]
  · simp [State.arrive, State.setFlagIf, hown]

theorem State.arrivedOutOfStep (h : Header) {s : State} (ho : s.stepState = .outOfStep) :
    s.ArrivedOutOfStep h (s.arrive h none false) := by
  obtain ⟨-, htick, htx, -, -, -, hrequester, hresponder, -⟩ := State.arrive_plain h none s
  have hrecorded := State.accept_recorded h none false s
  rw [State.accept_outOfStep h none s ho] at hrecorded
  exact ⟨State.arrive_sameCore h none s, by simpa using ho, htick, htx, hrequester, hresponder, by simp, by simp,
    by simp, State.arrive_flags h none s, hrecorded⟩

/-! ### What the requester makes of a STATE frame (R112) -/

/-- A header for a station that waits for one is examined. -/
theorem State.requesterState_examines {a : Addr} {n : Nat} {b : StateBody} {m : State} {d : Tick}
    (hp : m.requester.phase = .requesting (some d)) (ht : b.target = addrByte m.addr) (hi : b.index = 0) :
    m.requesterState a n b = m.examineHeader a n b := by
  unfold State.requesterState
  rw [if_neg (not_not.mpr ht)]
  simp only [hp]
  rw [if_pos hi]

/-- The requester waits for no frame such as this: its request is not sent, or it is in RETRY_WAIT, or the frame
is for another target or no header (R112, R123). -/
abbrev Requester.Ignores (own : Addr) (b : StateBody) (r : Requester) : Prop :=
  r.phase = .requesting none ∨ (∃ d, r.phase = .retryWait d)
    ∨ ∃ d, r.phase = .requesting (some d) ∧ (b.target ≠ addrByte own ∨ b.index ≠ 0)

theorem State.requesterState_ignores {a : Addr} {n : Nat} {b : StateBody} {m : State}
    (hi : m.requester.Ignores m.addr b) : m.requesterState a n b = m := by
  unfold State.requesterState
  split
  next => rfl
  next htarget =>
    rcases hi with hp | ⟨d, hp⟩ | ⟨d, hp, hother⟩
    · simp only [hp]
    · simp only [hp]
    · simp only [hp]
      rw [if_neg (hother.resolve_left htarget)]

/-- A MUTE station has neither a requester nor a responder to hand a STATE frame to (R112, R127). -/
theorem State.ownState_mute (h : Header) (body : List Byte) {m : State} (hm : m.stepState = .mute) :
    m.ownState h body = m := by
  unfold State.ownState
  rw [hm]
  cases readStateBody body <;> rfl

/-- A header of another array (R113). -/
theorem State.examineHeader_conflicts {a : Addr} {n : Nat} {b : StateBody} {m : State}
    (hf : payloadFingerprint b.payload ≠ m.fingerprint) : m.examineHeader a n b = m.enterConflict := if_pos hf

/-- A header that fails a test of R114. -/
theorem State.examineHeader_refuses {a : Addr} {b : StateBody} {m : State}
    (hf : payloadFingerprint b.payload = m.fingerprint)
    (hx : 3 + b.payload.length ≠ 20 ∨ 4 < (b.payload.getD 7 0).toNat ∨ 16 < (b.payload.getD 8 0).toNat
      ∨ b.total.toNat ≠ 1 + (b.payload.getD 7 0).toNat + (b.payload.getD 8 0).toNat) :
    m.examineHeader a (3 + b.payload.length) b = m.fail .badChunk := by
  unfold State.examineHeader
  rw [if_neg (not_not.mpr hf)]
  split
  next => rfl
  next hd tick hread =>
    obtain ⟨-, hopen, hpast⟩ := readSnapHeader_fields hread
    rw [if_neg]
    simp only [headerOk, Config.maxOpen, Config.maxHistory, Bool.and_eq_true, beq_iff_eq, decide_eq_true_eq,
      hopen, hpast]
    omega

/-- A header that passes is taken, and that of an empty table installed at once (R114, R118). -/
theorem State.examineHeader_takes {a : Addr} {b : StateBody} {m : State} {hd : SnapHeader} {tick : Tick}
    (hb : b.payload = hd.payload tick) (hf : hd.fingerprint = m.fingerprint) (ho : hd.openCount ≤ 4)
    (hh : hd.historyCount ≤ 16) (ht : b.total.toNat = 1 + hd.openCount + hd.historyCount) :
    m.examineHeader a 20 b =
      if 1 + hd.openCount + hd.historyCount = 1
      then (m.takeHeader a (1 + hd.openCount + hd.historyCount) hd tick).install hd []
      else m.takeHeader a (1 + hd.openCount + hd.historyCount) hd tick := by
  have hok : headerOk 20 (1 + hd.openCount + hd.historyCount) hd = true := by
    simp [headerOk, Config.maxOpen, Config.maxHistory, ho, hh]
  unfold State.examineHeader
  rw [hb, payloadFingerprint_payload, if_neg (not_not.mpr hf), readSnapHeader_payload hd tick (by omega) (by omega),
    ht]
  dsimp only
  rw [if_pos hok]

/-! ### The header taken (R114, R115) -/

/-- The header is recorded and chunk 1 expected, the hold queue going on. -/
theorem State.takeHeader_requester (a : Addr) (total : Nat) (hd : SnapHeader) (tick : Tick) (m : State) :
    (m.takeHeader a total hd tick).requester =
      { phase := .receiving { responder := a, header := hd, total := total, expected := 1, records := [],
                              deadline := tick + 1 + 32 },
        attempt := m.requester.attempt, unanswered := 0, hold := m.requester.hold } := rfl

/-- The counter is set from the header's tick (R75, R78, R102). -/
theorem State.takeHeader_timed (a : Addr) (total : Nat) (hd : SnapHeader) (tick : Tick) (m : State) :
    (m.takeHeader a total hd tick).tick = tick + 1 ∧ (m.takeHeader a total hd tick).lastClaimed = none
      ∧ (m.takeHeader a total hd tick).lastSent = tick + 1 := ⟨rfl, rfl, rfl⟩

theorem State.SameCore.takeHeader {s m : State} (hc : m.SameCore s) (a : Addr) (total : Nat) (hd : SnapHeader)
    (tick : Tick) : (m.takeHeader a total hd tick).SameCore s :=
  ⟨hc.params, hc.addr, hc.armed, hc.stepState, hc.orders, hc.table, hc.counters, hc.outbox, hc.deferred⟩

theorem State.Recorded.takeHeader {h : Header} {mark : Bool} {s m : State} (hr : s.Recorded h mark m) (a : Addr)
    (total : Nat) (hd : SnapHeader) (tick : Tick) : s.Recorded h mark (m.takeHeader a total hd tick) := by
  have hset : s.Recorded h mark (State.setTick (tickPlus tick 1)
      { m with requester := { m.requester with phase := .requesting none, unanswered := 0 } }) :=
    State.Recorded.setTick _ (hr.of_eq rfl rfl rfl)
  exact hset.of_eq rfl rfl rfl

/-! ### The entry into CONFLICT (R132) -/

/-- The station gives up all but its table, nothing being in transmission and no ordered frame standing. -/
theorem State.enterConflict_acts {m : State} (hstill : m.tx.Still)
    (hside : ∀ e ∈ m.tx.outbox, e.body.kind.ordered = false) :
    m.enterConflict.stepState = .conflict ∧ m.enterConflict.hasFlag .conflict = true
      ∧ m.enterConflict.requester = Requester.idle ∧ m.enterConflict.tx.outbox = []
      ∧ m.enterConflict.tx.deferred = [] ∧ m.enterConflict.roster = Roster.blank
      ∧ m.enterConflict.counters = m.counters := by
  have hclaims : m.tx.withdrawnClaims (fun _ => true) = 0 := by
    rw [hstill.withdrawnClaims _ fun _ _ => rfl, Transmitter.countKind_zero_iff]
    refine fun e he => beq_eq_false_iff_ne.mpr fun hclaim => ?_
    have hkind := hside e he
    rw [hclaim] at hkind
    cases hkind
  have hflag := State.hasFlag_setFlag_self .conflict m
  obtain ⟨houtbox, hdeferred⟩ := hstill.withdraw_all
  refine ⟨rfl, hflag, rfl, houtbox, hdeferred, rfl, ?_⟩
  change Counters.rise .claimsWithdrawn (m.tx.withdrawnClaims fun _ => true) m.counters = m.counters
  rw [hclaims, Counters.rise_zero]

/-! ### A chunk that fails the attempt (R122, R123) -/

/-- A failure that a request follows at once sets no flag, and a STATE_REQ stands. -/
theorem State.fail_answered_queues {k : FailKind} (hk : k ≠ .unanswered) (s : State) :
    (s.fail k).flags = s.flags ∧ (s.fail k).tx.queued .stateReq = true := by
  obtain ⟨hnext, -, -⟩ := s.fail_cases k
  have hzero : unansweredAfter k s.requester.unanswered = 0 := if_neg hk
  rw [hzero] at hnext
  rw [hnext (by decide)]
  exact ⟨rfl, Transmitter.offer_queued _ _ _⟩

/-! ### The header at a station that waits for one (R113 to R121) -/

/-- A header for a station that waits for one goes, recorded, to the requester's examination (R66, R112). -/
theorem State.exec_header (h : Header) (total : Byte) (payload : List Byte) {d : Tick} {s : State}
    (hr : s.receives = true) (ho : s.stepState = .outOfStep) (hp : s.requester.phase = .requesting (some d))
    (hlen : Kind.lengthOk .state (3 + payload.length) = true) :
    exec (.stateAccepted h ([addrByte s.addr, 0#8, total] ++ payload)) s
      = .next ((s.arrive h none false).examineHeader h.sender (3 + payload.length)
          ⟨addrByte s.addr, 0#8, total, payload⟩) := by
  have hm := s.arrivedOutOfStep h ho
  rw [State.exec_stateAccepted_outOfStep h _ _ total payload s hr ho hlen,
    State.requesterState_examines (d := d) (by rw [hm.requester, hp]) (by rw [hm.core.addr]) rfl]

/-- A header of a snapshot with records is taken (R75, R114). -/
theorem State.examineHeader_opens {h : Header} {hd : SnapHeader} {tick : Tick} {b : StateBody} {s m : State}
    (hm : s.ArrivedOutOfStep h m) (hb : b.payload = hd.payload tick) (hf : hd.fingerprint = s.fingerprint)
    (ho : hd.openCount ≤ 4) (hh : hd.historyCount ≤ 16)
    (ht : b.total.toNat = 1 + hd.openCount + hd.historyCount) (hmore : 1 < 1 + hd.openCount + hd.historyCount) :
    m.examineHeader h.sender 20 b = m.takeHeader h.sender (1 + hd.openCount + hd.historyCount) hd tick := by
  rw [State.examineHeader_takes hb (hf.trans hm.fingerprint.symm) ho hh ht, if_neg (by omega)]

/-- A header of an empty table is installed at once (R118). -/
theorem State.examineHeader_installs {h : Header} {hd : SnapHeader} {tick : Tick} {b : StateBody} {s m : State}
    (hm : s.ArrivedOutOfStep h m) (hb : b.payload = hd.payload tick) (hf : hd.fingerprint = s.fingerprint)
    (ho : hd.openCount = 0) (hh : hd.historyCount = 0) (ht : b.total.toNat = 1) :
    m.examineHeader h.sender 20 b = (m.takeHeader h.sender 1 hd tick).install hd [] := by
  rw [State.examineHeader_takes hb (hf.trans hm.fingerprint.symm) (by omega) (by omega) (by omega), ho, hh]
  rfl

/-- A gap in the hold queue fails the attempt (R118). -/
theorem State.install_of_gap {hd : SnapHeader} {records : List EventRecord} {m : State}
    (hgap : walk hd.position m.requester.hold = none ∨ GapAt hd.position m.requester.hold) :
    m.install hd records = m.fail .gap := by
  rw [State.install, hgap.elim id GapAt.walk_none]

/-- An install with nothing held leaves the table the header describes (R119 to R121). -/
theorem State.InstalledAs.of_empty {hd : SnapHeader} {now : Tick} {s t : State}
    (hi : s.InstalledAs hd [] [] now t) :
    t.table = { count := hd.position, digest := hd.digest, next := hd.next, epoch := hd.epoch,
                overflow := hd.overflow, stale := hd.stale, void := hd.void, slots := [], history := [] }
      ∧ t.counter .resyncsFailed = s.counter .resyncsFailed := by
  obtain ⟨-, -, -, -, -, happlied⟩ := hi
  obtain ⟨htable, -, hcounters, -⟩ := happlied _ rfl
  refine ⟨?_, hcounters .resyncsFailed (by decide)⟩
  simpa [State.applyHeld] using htable

/-- An attempt that fails at a chunk or at a gap, at a station that is as `s` was (R122, R123). -/
theorem State.fail_of_sameCore {k : FailKind} (hk : k ≠ .unanswered) {s m : State} (hc : m.SameCore s)
    (ha : m.requester.attempt = s.requester.attempt) :
    (m.fail k).stepState = s.stepState ∧ (m.fail k).table = s.table ∧ (m.fail k).orders = s.orders
      ∧ (m.fail k).counter .resyncsFailed = satAdd16 (s.counter .resyncsFailed) 1
      ∧ (m.fail k).requester = { phase := .requesting none, attempt := satAdd8 s.requester.attempt 1,
                                 unanswered := 0, hold := [] } := by
  obtain ⟨hrequester, htable, hstep, hfailed, -⟩ := State.fail_answered hk m
  have hcounter : m.counter .resyncsFailed = s.counter .resyncsFailed := by
    rw [State.counter, hc.counters, State.counter]
  exact ⟨hstep.trans hc.stepState, htable.trans hc.table, by simpa using hc.orders, by rw [hfailed, hcounter],
    by rw [hrequester, ha]⟩

/-! ### The obligation -/

/-- Settles O53: the header taken, the header of an empty table, the header refused, and the frames ignored. -/
theorem headerIsTakenOrRefused : Obligations.HeaderIsTakenOrRefused := by
  refine ⟨fun h hd tick d s hr ho hp hopen hpast hf hmore => ?_, fun h hd tick d s hr ho hp hopen hpast hf => ?_,
    fun h total payload d s hr ho hp hl hlen => ?_, fun h target index total payload s hr hlen => ⟨fun ho hi => ?_,
      fun hmute => ?_⟩⟩
  · have hm := s.arrivedOutOfStep h ho
    have htotal : (BitVec.ofNat 8 (1 + hd.openCount + hd.historyCount)).toNat
        = 1 + hd.openCount + hd.historyCount := by simp; omega
    have hexec := State.exec_header h (BitVec.ofNat 8 (1 + hd.openCount + hd.historyCount)) (hd.payload tick) hr ho
      hp (by rw [hd.payload_length]; rfl)
    rw [hd.payload_length, State.examineHeader_opens hm rfl hf hopen hpast htotal hmore] at hexec
    have hcore := hm.core.takeHeader h.sender (1 + hd.openCount + hd.historyCount) hd tick
    exact ⟨_, hexec, by rw [State.takeHeader_requester, hm.requester], rfl, rfl, rfl,
      hm.recorded.takeHeader _ _ _ _, hcore.stepState.trans ho, hcore.table, hcore.counters, hcore.orders, hm.stage⟩
  · have hm := s.arrivedOutOfStep h ho
    have hexec := State.exec_header h 1#8 (hd.payload tick) hr ho hp (by rw [hd.payload_length]; rfl)
    rw [hd.payload_length, State.examineHeader_installs hm rfl hf hopen hpast rfl] at hexec
    have hcore := hm.core.takeHeader h.sender 1 hd tick
    have hrecorded := hm.recorded.takeHeader h.sender 1 hd tick
    have hrequester := State.takeHeader_requester h.sender 1 hd tick (s.arrive h none false)
    obtain ⟨ttick, tclaimed, tsent⟩ := State.takeHeader_timed h.sender 1 hd tick (s.arrive h none false)
    have tstage : ((s.arrive h none false).takeHeader h.sender 1 hd tick).stage = s.stage := hm.stage
    have tstreak : ((s.arrive h none false).takeHeader h.sender 1 hd tick).streak = s.streak := hm.streak
    rw [hm.requester] at hrequester
    generalize (s.arrive h none false).takeHeader h.sender 1 hd tick = m at *
    obtain ⟨rroster, rtick, rclash⟩ := m.install_record hd []
    have hinstalled : ∀ marked, walk hd.position s.requester.hold = some marked →
        s.InstalledAs hd [] marked (tick + 1) (m.install hd []) := fun marked hwalk => by
      rw [← ttick]
      exact State.install_installedAs m s hd [] marked hcore (hcore.stepState.trans ho) tstreak
        (by rw [hrequester]; exact hwalk)
    refine ⟨_, hexec, rtick.trans ttick, by simpa using tclaimed, by simpa using tsent, by simpa using tstage,
      hrecorded.of_eq rroster rtick rclash, fun hgap => ?_, hinstalled, fun hnone => ?_⟩
    · obtain ⟨fstep, ftable, forders, fcounter, frequester⟩ :=
        State.fail_of_sameCore (k := .gap) (by decide) hcore (by rw [hrequester])
      rw [State.install_of_gap (by rw [hrequester]; exact hgap)]
      exact ⟨fstep.trans ho, ftable, forders, fcounter, frequester⟩
    · have hi := hinstalled [] (by rw [hnone]; rfl)
      obtain ⟨itable, ifailed⟩ := hi.of_empty
      obtain ⟨istep, irequester, -, idone, -⟩ := hi
      exact ⟨istep, irequester, itable, idone, ifailed⟩
  · have hm := s.arrivedOutOfStep h ho
    have hexec := State.exec_header h total payload hr ho hp hlen
    refine ⟨fun hf => ?_, fun hf hx => ?_⟩
    · rw [State.examineHeader_conflicts (hm.fingerprint ▸ hf)] at hexec
      obtain ⟨hlaw, -, hside, -⟩ := hl
      have hstill : (s.arrive h none false).tx.Still := by rw [hm.tx]; exact hlaw.still (State.receives_onLine hr)
      obtain ⟨cstep, cflag, crequester, coutbox, cdeferred, croster, ccounters⟩ :=
        State.enterConflict_acts hstill (by rw [hm.tx]; exact hside (by simp [ho]))
      exact ⟨_, hexec, cstep, cflag, crequester, coutbox, cdeferred, croster, hm.core.table, hm.tick,
        hm.core.orders, hm.stage, hm.core.armed, ccounters.trans hm.core.counters⟩
    · rw [State.examineHeader_refuses (b := ⟨addrByte s.addr, 0#8, total, payload⟩)
        (hf.trans hm.fingerprint.symm) hx] at hexec
      obtain ⟨fstep, ftable, -, fcounter, frequester⟩ :=
        State.fail_of_sameCore (k := .badChunk) (by decide) hm.core (by rw [hm.requester])
      obtain ⟨fflags, fqueued⟩ := State.fail_answered_queues (k := .badChunk) (by decide) (s.arrive h none false)
      obtain ⟨froster, ftick, fclash⟩ := (s.arrive h none false).fail_record .badChunk
      exact ⟨_, hexec, fstep.trans ho, ftable, ftick.trans hm.tick, fcounter, frequester,
        hm.recorded.of_eq froster ftick fclash, fqueued, fflags.trans hm.flags⟩
  · have hm := s.arrivedOutOfStep h ho
    have hexec := State.exec_stateAccepted_outOfStep h target index total payload s hr ho hlen
    rw [State.requesterState_ignores (by rw [hm.requester, hm.core.addr]; exact hi)] at hexec
    exact ⟨_, hexec, hm.requester, hm.stepState, hm.core.table, hm.tick, hm.core.counters, hm.core.outbox,
      hm.core.deferred, hm.core.orders, hm.responder, hm.recorded⟩
  · have hm := State.KeepsStep.acceptedQuietly (h := h) (s := s) (.inl hmute)
    have hstep := hm.stepState.trans hmute
    have hlength : Kind.lengthOk .state ([target, index, total] ++ payload).length = true := by
      rw [List.length_append]; exact hlen
    refine ⟨s.accept h none false, ?_, hm.requester, hstep, hm.table, hm.tick, by rw [hm.tx], by rw [hm.tx],
      by simp, hm.responder, hm.recorded⟩
    simp only [exec, execStateAccepted, hr, hlength, if_true, State.ownState_mute h _ hstep]

end Sys2Proof.Machine

/-! CONFLICT and MUTE, which only a reset or a restart ends: what a station in them does not do, and every
command's effect on their step state (O9). -/

namespace Sys2Proof.Machine

/-! ### A station that a reset alone brings back (R60, R87, R132, R133) -/

/-- The station is in CONFLICT or MUTE: it neither resynchronises nor has a frame of its own on the line. -/
structure State.Silenced (s : State) : Prop where
  step : s.stepState = .conflict ∨ s.stepState = .mute
  requester : s.requester.phase = .none
  line : s.tx.onLine = none

/-- The contexts and the line of a lawful station in CONFLICT or MUTE (R49, R106). -/
theorem State.PhaseLaw.silenced {s : State} (h : s.PhaseLaw) (hs : s.stepState = .conflict ∨ s.stepState = .mute) :
    s.Silenced := by
  refine ⟨hs, ?_, ?_⟩
  · by_contra hphase
    have hout := h.settled.requester.phase.mp hphase
    rcases hs with hs | hs <;> simp [hs] at hout
  · by_contra hline
    have htransmits := h.settled.line (Option.isSome_iff_ne_none.mpr hline)
    rcases hs with hs | hs <;> simp [State.transmits, hs] at htransmits

theorem State.Silenced.configured {s : State} (hs : s.Silenced) : s.configured = true := by
  rcases hs.step with h | h <;> simp [State.configured, h]

theorem State.Silenced.not_listening {s : State} (hs : s.Silenced) : s.stepState ≠ .listening := by
  rcases hs.step with h | h <;> simp [h]

/-- No frame of its own can be lost, broken or completed. -/
theorem State.Silenced.onLine {s : State} (hs : s.Silenced) : s.onLine = false := by
  simp [State.onLine, hs.line]

theorem State.Silenced.sends {s : State} (hs : s.Silenced) (k : Kind) : s.sends k = false := by
  simp [State.sends, hs.line]

theorem State.Silenced.completeSequenced {s : State} (hs : s.Silenced) (k : Kind) (f : State → State) :
    s.completeSequenced k f = s := by
  simp [State.completeSequenced, hs.sends k]

/-! ### Ticks (R74, R108, R116, R140) -/

theorem State.testRequest_of_none {s : State} (h : s.requester.phase = .none) : s.testRequest = s := by
  simp [State.testRequest, h]

theorem State.testChunk_of_none {s : State} (h : s.requester.phase = .none) : s.testChunk = s := by
  simp [State.testChunk, h]

/-- Without a requester and a listening end no test of a tick moves the step state. -/
theorem State.offerTick_stepState {s : State} (hp : s.requester.phase = .none) (hl : s.stepState ≠ .listening) :
    s.offerTick.stepState = s.stepState := by
  have hphase : s.testExpiry.scheduleCloses.offerPresence.markAbsent.requester.phase = .none := by simpa using hp
  unfold State.offerTick
  rw [State.testRequest_of_none hphase, State.testChunk_of_none hphase,
    State.testListening_of_ne (by simpa using hl)]
  simp

/-! ### Acceptances (R66, R88, R93) -/

/-- A vote moves the step state of an IN_STEP station alone (R93, R96). -/
theorem State.vote_stepState (h : Header) {m : State} (hi : m.stepState ≠ .inStep) :
    (m.vote h).stepState = m.stepState := by
  rcases State.vote_cases h m with hquiet | ⟨-, -, -, hin, -⟩
  · obtain ⟨-, -, -, -, hstep, -⟩ := hquiet.frame
    exact hstep
  · exact absurd hin hi

/-- A Receiver that receives no frame accepts none (R63). -/
theorem Instr.Brings.exec_unreceived {h : Header} {c : Instr} {carried : Option Half} {epoch : Bool} {s : State}
    (hb : Instr.Brings h c carried epoch) (hr : s.receives = false) : exec c s = .next s := by
  cases hb with
  | claim stamp ep => simp [exec, execClaimAccepted, hr]
  | close number => simp [exec, execCloseAccepted, hr]
  | clear tick ep => simp [exec, execClearAccepted, hr]
  | epoch => simp [exec, execEpochAccepted, hr]
  | state body _ => simp [exec, execStateAccepted, hr]
  | stateReq fingerprint attempt => simp [exec, execStateReqAccepted, hr]
  | presence fingerprint => simp [exec, execPresenceAccepted, hr]

/-- In CONFLICT an accepted frame is recorded alone; in MUTE it is voted on and applied, and neither ends MUTE
(R42, R67, R96). -/
theorem State.Silenced.brings {s t : State} (hs : s.Silenced) {h : Header} {c : Instr} {carried : Option Half}
    {epoch : Bool} (hb : Instr.Brings h c carried epoch) (he : exec c s = .next t) : t.stepState = s.stepState := by
  cases hr : s.receives with
  | false => rw [hb.exec_unreceived hr] at he; cases he; rfl
  | true =>
    rcases hs.step with hconflict | hmute
    · rw [State.OnlyListens.exec_eq (.inr (.inl hconflict)) hr hb] at he
      cases he
      simp
    · have happlies : s.applies = true := s.applies_iff.mpr (.inr hmute)
      have haccept : (s.accept h carried epoch).stepState = s.stepState := by
        rw [State.accept_eq_vote h carried epoch happlies, State.vote_stepState h (by simp [hmute])]
        simp
      rw [hb.exec_owner hr] at he
      cases he
      exact (hb.owner_applies ((State.applies_iff _).mpr (.inr (haccept.trans hmute)))).stepState.trans haccept

/-! ### Every command -/

/-- At a configured station the board moves the step state by a restart alone, which CONFLICT shuts out (R137,
R146). -/
theorem exec_boardSide_stepState (c : Instr) {s t : State} (hc : c.boardSide = true) (hconf : s.configured = true)
    (hrestart : c = .restartStationCommit → s.stepState = .conflict) (h : exec c s = .next t) :
    t.stepState = s.stepState := by
  have htaken : ∀ f : State → State, s.TableKept (f s) → (s.taken c f).stepState = s.stepState :=
    fun f hf => (State.taken_kept c f s hf).stepState
  have hresponds : ∀ (r : Result) (data : List Byte) (k : Commit), s.TableKept (s.respond r data k) :=
    fun r data k => State.respond_kept r data k s
  cases c with
  | transactionOpen shifted => cases h; simp
  | transactionEnd =>
    cases h
    unfold State.endTransaction
    (repeat' split) <;> rfl
  | statusByteEnd | responseEnd | takeOrderCommit | ackFlagsCommit => cases h; split <;> simp
  | setConfig w g q h' p v => cases h; exact htaken _ (by simpa [hconf, State.answer] using hresponds _ _ _)
  | arm | disarm => cases h; exact htaken _ (State.setArmed_kept _ s)
  | takeOrder => cases h; exact htaken _ s.takeOrder_kept
  | listEvents | readStatus | readRoster => cases h; exact htaken _ (hresponds _ _ _)
  | stageEvent number => cases h; exact htaken _ (State.stageEvent_kept _ s)
  | readStage offset length => cases h; exact htaken _ (State.readStage_kept _ _ s)
  | readCounters first n => cases h; exact htaken _ (State.readCounters_kept _ _ s)
  | ackFlags mask => cases h; exact htaken _ (hresponds _ _ _)
  | askClear | askEpoch => cases h; exact htaken _ (State.askFrame_kept _ s)
  | restartStation => cases h; exact htaken _ s.askRestart_kept
  | restartStationCommit =>
    cases h
    rw [if_pos (hrestart rfl)]
    split <;> simp
  | unknownCommand code =>
    cases h
    split
    · rfl
    · exact htaken _ (hresponds _ _ _)
  | _ => cases hc

/-- What leaves the step state outside reset leaves it in reset too, where it is not made (R135). -/
theorem State.unlessReset_stepState {s : State} {f : State → State} (hf : (f s).stepState = s.stepState) :
    (s.unlessReset f).stepState = s.stepState := by
  unfold State.unlessReset
  split
  · rfl
  · exact hf

/-- A silenced station stays in its step state but for a pin reset, and in MUTE for a restart. -/
theorem State.Silenced.exec_stepState {s t : State} (hs : s.Silenced) (c : Instr) (hpin : c ≠ .pinReset)
    (hrestart : c = .restartStationCommit → s.stepState = .conflict) (h : exec c s = .next t) :
    t.stepState = s.stepState := by
  cases hside : c.boardSide with
  | true => exact exec_boardSide_stepState c hside hs.configured hrestart h
  | false =>
  cases c with
  | pinReset => exact absurd rfl hpin
  | resetRelease addr rate => cases h; split <;> rfl
  | refArrival =>
    cases h
    refine State.unlessReset_stepState ?_
    rw [if_pos hs.configured]
    exact State.offerTick_stepState hs.requester hs.not_listening
  | trigEdge => cases h; exact State.unlessReset_stepState (by simp)
  | transmissionStart recessive => cases h; simp
  | arbitrationLoss | bitError => cases h; simp [hs.onLine]
  | deferredOfferAdmitted => cases h; exact State.unlessReset_stepState rfl
  | ownClaimCompletes | ownCloseCompletes | ownEpochCompletes => cases h; rw [hs.completeSequenced]
  | ownClearCompletes | ownStateCompletes | ownStateReqCompletes | ownPresenceCompletes =>
    cases h
    simp [hs.sends]
  | frameDiscarded fault => cases h; split <;> simp
  | claimAccepted h' stamp epoch => exact hs.brings (.claim stamp epoch) h
  | closeAccepted h' number => exact hs.brings (.close number) h
  | clearAccepted h' tick epoch => exact hs.brings (.clear tick epoch) h
  | epochAccepted h' => exact hs.brings .epoch h
  | stateAccepted h' body =>
    by_cases hlength : Kind.lengthOk .state body.length = true
    · exact hs.brings (.state body hlength) h
    · cases h
      rw [if_neg hlength]
      split <;> simp
  | stateReqAccepted h' fingerprint attempt => exact hs.brings (.stateReq fingerprint attempt) h
  | presenceAccepted h' fingerprint => exact hs.brings (.presence fingerprint) h
  | closeDueReached | claimExpiry | presenceDue | absence | retryTick | answerDelayEnd =>
    cases h
    exact State.unlessReset_stepState (by simp)
  | requestDeadline =>
    cases h
    exact State.unlessReset_stepState (by rw [State.testRequest_of_none hs.requester])
  | chunkDeadline =>
    cases h
    exact State.unlessReset_stepState (by rw [State.testChunk_of_none hs.requester])
  | listeningEnd =>
    cases h
    exact State.unlessReset_stepState (by rw [State.testListening_of_ne hs.not_listening])
  | lineIdle | startBitTaken | breakEnd => cases h; split <;> simp
  | _ => cases hside

/-- Settles O9: a lawful station in CONFLICT or MUTE is silenced, and so keeps its step state. -/
theorem conflictAndMuteAreLeftByResets : Obligations.ConflictAndMuteAreLeftByResets := by
  intro c s t hl h hpin
  refine ⟨fun hconflict => ?_, fun hmute hrestart => ?_⟩
  · exact ((hl.silenced (.inl hconflict)).exec_stepState c hpin (fun _ => hconflict) h).trans hconflict
  · exact ((hl.silenced (.inr hmute)).exec_stepState c hpin (fun hc => absurd hc hrestart) h).trans hmute

end Sys2Proof.Machine

/-! A snapshot read back by a requester: its header, its records one by one, and the table they install (O13). -/

namespace Sys2Proof.Machine

/-! ### A record read back from its payload (R177) -/

/-- The state and the closing fields are those that the layout has codes for: an open record's or a closed
one's (R10, R177). -/
def EventRecord.Coded (r : EventRecord) : Prop :=
  (r.state = .opened ∧ r.closing = none) ∨ (r.state ≠ .opened ∧ r.closingOk = true)

theorem EventRecord.OpenLaw.coded {w : Nat} {r : EventRecord} (h : r.OpenLaw w) : r.Coded := by
  obtain ⟨hstate, hclosing, -⟩ := h
  exact .inl ⟨hstate, hclosing⟩

theorem EventRecord.ClosedLaw.coded {w : Nat} {r : EventRecord} (h : r.ClosedLaw w) : r.Coded := by
  obtain ⟨hstate, hclosing, -⟩ := h
  exact .inr ⟨hstate, hclosing⟩

/-- A closed record has closing fields, which fit its opener and its state (R34, R45). -/
theorem EventRecord.closingOk_iff (r : EventRecord) : r.closingOk = true ↔
    ∃ c, r.closing = some c ∧ (c.cause = .opener → c.closer = r.opener)
      ∧ (c.cause = .standIn → c.closer ≠ r.opener) ∧ (c.cause = .epoch → r.state = .dropped) := by
  unfold EventRecord.closingOk
  cases r.closing with
  | none => simp
  | some c => obtain ⟨cause, closer⟩ := c; cases cause <;> simp

theorem EventRecord.readStateByte_stateByte {r : EventRecord} (h : r.Coded) :
    readStateByte r.stateByte = some (r.state, r.closing.map Closing.cause) := by
  rcases h with ⟨hstate, hclosing⟩ | ⟨hstate, hok⟩
  · rw [EventRecord.stateByte, hstate, hclosing]
    rfl
  · obtain ⟨⟨cause, closer⟩, hclosing, -, -, hepoch⟩ := r.closingOk_iff.mp hok
    rw [EventRecord.stateByte, hclosing]
    cases cause with
    | opener | standIn =>
      cases hr : r.state with
      | opened => exact absurd hr hstate
      | accepted | dropped => simp [causeCode, RecordState.code, readStateByte]
    | epoch => simp [causeCode, RecordState.code, readStateByte, hepoch rfl]

theorem EventRecord.readClosing_closerByte {r : EventRecord} (h : r.Coded) :
    readClosing r.opener (r.closing.map Closing.cause) r.closerByte = some r.closing := by
  rcases h with ⟨-, hclosing⟩ | ⟨-, hok⟩
  · rw [EventRecord.closerByte, hclosing]
    rfl
  · obtain ⟨⟨cause, closer⟩, hclosing, hown, hother, -⟩ := r.closingOk_iff.mp hok
    rw [EventRecord.closerByte, hclosing]
    cases cause with
    | opener => simpa [readClosing, byteAddr_addrByte] using hown rfl
    | standIn => simp [readClosing, byteAddr_addrByte, hother rfl]
    | epoch => simp [readClosing, byteAddr_addrByte]

theorem readMembers_pairs (ms : List Member) :
    readMembers (ms.flatMap fun m => [addrByte m.addr, m.offset]) = some ms := by
  induction ms with
  | nil => rfl
  | cons m ms ih =>
    rw [List.flatMap_cons, List.cons_append, List.cons_append, List.nil_append, readMembers, byteAddr_addrByte, ih]

theorem length_memberPairs (ms : List Member) :
    (ms.flatMap fun m => [addrByte m.addr, m.offset]).length = 2 * ms.length := by
  simp [List.length_flatMap, Nat.mul_comm]

theorem EventRecord.payload_length (r : EventRecord) : r.payload.length = 13 + 2 * r.members.length := by
  have hpairs := length_memberPairs r.members
  simp only [EventRecord.payload, List.length_append, hpairs]
  rfl

/-- A record's payload reads back as the record without its local parts (R128, R177). -/
theorem EventRecord.readRecord_payload {r : EventRecord} (h : r.Coded) (hlen : r.members.length < 256) :
    readRecord r.payload = some r.replicated := by
  have hcount : (BitVec.ofNat 8 r.members.length).toNat = r.members.length := Nat.mod_eq_of_lt hlen
  simp only [EventRecord.payload, be16, be24, List.cons_append, List.nil_append, readRecord, byteAddr_addrByte,
    EventRecord.readStateByte_stateByte h, readMembers_pairs, EventRecord.readClosing_closerByte h, hcount, if_true,
    half_be16, tick24_be24]
  rfl

/-! ### A record chunk that passes (R117) -/

theorem membersOk_iff (w : Nat) (r : EventRecord) : membersOk w r.opener r.members = true ↔ r.MembersLaw w := by
  refine ⟨membersOk_law, fun ⟨hhead, hlen, hnodup, hoffsets⟩ => ?_⟩
  have hpos : 1 ≤ r.members.length := by
    cases hms : r.members with
    | nil => simp [hms] at hhead
    | cons m ms => simp
  simp only [membersOk, Bool.and_eq_true, decide_eq_true_eq, beq_iff_eq, List.all_eq_true]
  exact ⟨⟨⟨⟨hpos, hlen⟩, hhead⟩, hnodup⟩, hoffsets⟩

/-- The converse of `checkRecord_law`: the payload of a record that is lawful for its place, of a number not
received yet and without local parts, passes R117 and reads back as the record. -/
theorem checkRecord_payload {w : Nat} {opened : Bool} {epoch : Byte} {taken : List EventRecord} {r : EventRecord}
    (hopen : opened = true → r.OpenLaw w ∧ r.epoch = epoch) (hclosed : opened = false → r.ClosedLaw w)
    (hlocal : r.replicated = r) (hnumber : ∀ o ∈ taken, o.number ≠ r.number) :
    checkRecord w opened epoch taken r.payload = some r := by
  have hread : r.Coded → r.MembersLaw w → readRecord r.payload = some r := fun hcoded ⟨_, hlen, _⟩ =>
    hlocal ▸ EventRecord.readRecord_payload hcoded (lt_of_le_of_lt hlen (by decide))
  cases opened with
  | true =>
    obtain ⟨hlaw, hepoch⟩ := hopen rfl
    have ⟨hstate, _, _, hlate, hmembers⟩ := hlaw
    simpa [checkRecord, hread hlaw.coded hmembers, hstate, hepoch, (membersOk_iff w r).mpr hmembers, hlate, hasAddr]
      using hnumber
  | false =>
    have hlaw := hclosed rfl
    have ⟨hstate, _, _, hmembers, hlate⟩ := hlaw
    simpa [checkRecord, hread hlaw.coded hmembers, hstate, (membersOk_iff w r).mpr hmembers]
      using And.intro hlate hnumber

/-- Each record of a lawful snapshot passes R117 after the records before it. -/
theorem SnapHeader.Describes.checkRecord_payload {w : Nat} {h : SnapHeader} {records : List EventRecord}
    (hd : h.Describes w records) {i : Nat} {r : EventRecord} (hr : records[i]? = some r)
    (hlocal : r.replicated = r) :
    checkRecord w (i + 1 ≤ h.openCount) h.epoch (records.take i) r.payload = some r := by
  refine Machine.checkRecord_payload (fun hplace => hd.opened r ?_) (fun hplace => hd.closed r ?_) hlocal
    (fun o ho hnumber => ?_)
  · have hlt : i < h.openCount := by simpa using hplace
    exact List.mem_of_getElem? (i := i) (by rw [List.getElem?_take_of_lt hlt, hr])
  · have hle : h.openCount ≤ i := by simpa using hplace
    exact List.mem_of_getElem? (i := i - h.openCount) (by
      rw [List.getElem?_drop, Nat.add_sub_cancel' hle, hr])
  · obtain ⟨hi, rfl⟩ := List.getElem?_eq_some_iff.mp hr
    obtain ⟨j, hj, rfl⟩ := List.mem_take_iff_getElem.mp ho
    have hji : j < i := by omega
    have hsame := (hd.numbers.getElem_inj_iff (i := j) (j := i) (hi := by simp; omega) (hj := by simpa using hi)).mp
      (by simpa using hnumber)
    omega

/-! ### The snapshot (R128) -/

/-- A lawful table's snapshot has four open and sixteen closed records at most, and its header counts them (R17,
R18, R128). -/
theorem State.TableLaw.snapshot_counts {s : State} (h : s.TableLaw) :
    s.snapshot.header.openCount ≤ Config.maxOpen ∧ s.snapshot.header.historyCount ≤ Config.maxHistory
      ∧ s.snapshot.records.length = s.snapshot.header.openCount + s.snapshot.header.historyCount := by
  obtain ⟨⟨hopen, -, hpast, -⟩, -⟩ := h
  exact ⟨hopen, hpast, by simp [State.snapshot]⟩

theorem State.snapshot_take (s : State) :
    s.snapshot.records.take s.snapshot.header.openCount = s.table.slots.map EventRecord.replicated := by
  simp [State.snapshot]

theorem State.snapshot_drop (s : State) :
    s.snapshot.records.drop s.snapshot.header.openCount = s.table.history.map EventRecord.replicated := by
  simp [State.snapshot]

theorem State.snapshot_replicated {s : State} {r : EventRecord} (hr : r ∈ s.snapshot.records) :
    r.replicated = r := by
  obtain ⟨x, -, rfl⟩ := List.mem_map.mp hr
  rfl

/-- The header of a lawful table's snapshot describes its records. -/
theorem State.TableLaw.snapshot_describes {s : State} (h : s.TableLaw) :
    s.snapshot.header.Describes s.params.w.toNat s.snapshot.records := by
  obtain ⟨⟨-, hopen, -, hclosed, hnumbers⟩, -⟩ := h
  refine ⟨fun r hr => ?_, fun r hr => ?_, ?_, fun r hr => ?_⟩
  · rw [State.snapshot_take] at hr
    obtain ⟨x, hx, rfl⟩ := List.mem_map.mp hr
    obtain ⟨⟨hstate, hclosing, -, hlate, hmembers⟩, hepoch⟩ := hopen x hx
    exact ⟨⟨hstate, hclosing, rfl, hlate, hmembers⟩, hepoch⟩
  · rw [State.snapshot_drop] at hr
    obtain ⟨x, hx, rfl⟩ := List.mem_map.mp hr
    obtain ⟨⟨hstate, hclosing, -, hmembers, hlate⟩, -⟩ := hclosed x hx
    exact ⟨hstate, hclosing, rfl, hmembers, hlate⟩
  · simpa [State.snapshot, Function.comp_def, EventRecord.replicated] using hnumbers
  · rw [← State.snapshot_replicated hr]
    rfl

/-- The table that a snapshot installs is the table copied, its local parts apart (R119, R128). -/
theorem State.installedTable_snapshot (s : State) :
    (installedTable s.snapshot.header s.snapshot.records).shared = s.table.shared := by
  simp only [Table.shared, installedTable, State.snapshot_take, State.snapshot_drop, List.map_map]
  rfl

/-- Settles O13: the header by its counts, the records one by one, and the table they install. -/
theorem snapshotOfALawfulTableIsTaken : Obligations.SnapshotOfALawfulTableIsTaken := by
  intro s tick h
  obtain ⟨hopen, hpast, hlen⟩ := h.snapshot_counts
  have hopen' : s.snapshot.header.openCount < 256 := lt_of_le_of_lt hopen (by decide)
  have hpast' : s.snapshot.header.historyCount < 256 := lt_of_le_of_lt hpast (by decide)
  refine ⟨readSnapHeader_payload _ tick hopen' hpast', ?_, fun i r hr => ⟨?_, ?_⟩, s.installedTable_snapshot⟩
  · rw [headerOk_iff, SnapHeader.payload_length, hlen, Nat.add_assoc]
    exact ⟨rfl, hopen, hpast, rfl⟩
  · exact h.snapshot_describes.checkRecord_payload hr (State.snapshot_replicated (List.mem_of_getElem? hr))
  · rw [EventRecord.payload_length]
    omega

end Sys2Proof.Machine

/-! An install that reaches the responder's live table (O14). -/

namespace Sys2Proof.Machine

/-! ### The held frames (R118, R120) -/

/-- The walk marks frames that follow on from one another (R118). -/
theorem walk_of_consecutive {position : Half} {new : List Held}
    (hn : ∀ i f, new[i]? = some f → f.count = position + BitVec.ofNat 16 i) : walk position new = some new := by
  induction new generalizing position with
  | nil => rfl
  | cons f new ih =>
    have hfirst : f.count = position := by simpa using hn 0 f rfl
    have hrest : walk (position + 1) new = some new := by
      refine ih fun i g hg => ?_
      rw [hn (i + 1) g (by simpa using hg), Nat.add_comm i 1, BitVec.ofNat_add, ← BitVec.add_assoc]
      rfl
    rw [(walk_rows _ _ _).2.1 hfirst, hrest]
    rfl

/-- The walk passes over the frames that the snapshot includes (R118). -/
theorem walk_append {position : Half} {old new : List Held}
    (ho : ∀ f ∈ old, countBefore f.count position = true) : walk position (old ++ new) = walk position new := by
  induction old with
  | nil => rfl
  | cons f old ih =>
    rw [List.cons_append, (walk_rows _ _ _).1 (ho f (by simp))]
    exact ih fun g hg => ho g (by simp [hg])

/-- Held frames are applied as any ordered frames are (R2, R120). -/
theorem State.applyHeld_eq_applyAll (fs : List Held) (s : State) :
    s.applyHeld fs = s.applyAll (fs.map fun f => (f.sender, some f.body)) := by
  induction fs generalizing s with
  | nil => rfl
  | cons f fs ih => exact ih (s.applyFrame f.sender f.body)

/-! ### The install (R119 to R121) -/

/-- The dues computed on entry into IN_STEP are local parts (R31, R180). -/
theorem State.computeDues_shared (s : State) : s.computeDues.table.shared = s.table.shared := by
  simp [State.computeDues, Table.shared, EventRecord.replicated, Function.comp_def]

/-- An install without a gap: IN_STEP, with the marked frames applied to the table installed (R119 to R121). -/
theorem State.install_of_walk {s : State} {h : SnapHeader} {records : List EventRecord} {marked : List Held}
    (hw : walk h.position s.requester.hold = some marked) :
    (s.install h records).stepState = .inStep ∧ (s.install h records).requester = Requester.idle
      ∧ (s.install h records).table.shared
          = (State.applyHeld marked { s with table := installedTable h records }).table.shared := by
  simp only [State.install, hw]
  exact ⟨by simp, by simp, State.computeDues_shared _⟩

/-- Settles O14: the walk marks the frames applied after the snapshot, and the table installed and the table
copied stay alike through them. -/
theorem installReachesTheLiveTable : Obligations.InstallReachesTheLiveTable := by
  intro x y old new hhold hold hnew hf hw hq
  have hwalk : walk y.snapshot.header.position x.requester.hold = some new := by
    have hposition : y.snapshot.header.position = y.table.count := rfl
    rw [hposition, hhold, walk_append hold, walk_of_consecutive hnew]
  obtain ⟨hstep, hrequester, htable⟩ := State.install_of_walk (records := y.snapshot.records) hwalk
  refine ⟨?_, hstep, hrequester⟩
  have htwin : State.Twin { x with table := installedTable y.snapshot.header y.snapshot.records } y :=
    ⟨y.installedTable_snapshot, hf, hw, hq⟩
  rw [htable, State.applyHeld_eq_applyAll]
  exact (htwin.applyAll _).table

end Sys2Proof.Machine

/-! The end of an answer delay and of the listening period (O60). -/

namespace Sys2Proof.Machine

/-! ### Offers of a kind that does not stand (R70, R71) -/

theorem Transmitter.offer_of_room {b : Body} {t : Transmitter} (hq : t.queued b.kind = false)
    (hroom : generalCount t.outbox < Config.maxGeneral) : t.offer b = t.admitEntry b := by
  rw [Transmitter.offer, hq, if_neg Bool.false_ne_true, if_pos hroom]

theorem Transmitter.offer_of_full {b : Body} {t : Transmitter} (hq : t.queued b.kind = false)
    (hfull : Config.maxGeneral ≤ generalCount t.outbox) :
    t.offer b = { t with deferred := insertOffer b t.deferred } := by
  rw [Transmitter.offer, hq, if_neg Bool.false_ne_true, if_neg (not_lt.mpr hfull)]

/-! ### The tests (R128, R140) -/

theorem State.testDelay_of_reached {s : State} {target : Addr} {ends : Tick}
    (hp : s.responder.phase = .delay target ends) (hr : reached s.tick ends = true) :
    s.testDelay = s.beginService target := by
  simp only [State.testDelay, hp, hr, if_true]

theorem State.testListening_of_reached {s : State} {ends : Tick} (hl : s.stepState = .listening)
    (he : s.listeningEnd = some ends) (hr : reached s.tick ends = true) : s.testListening = s.found := by
  rw [State.testListening, if_pos ⟨hl, by rw [he]; exact hr⟩]

/-- A station with an empty outbox founds: no record has a due, and the EPOCH is its one entry (R143). -/
theorem State.found_of_empty {s : State} (h : s.tx.outbox = []) : s.found =
    { s with stepState := .inStep, listeningEnd := none, lastSent := s.tick,
             table := Table.founding s.fingerprint, tx := { s.tx with outbox := [Entry.fresh .epoch] } } := by
  simp [State.found, State.computeDues, State.scheduleCloses, Transmitter.scheduleCloses, Table.founding,
    Table.reset, Transmitter.holds, h, State.admitEntry, Transmitter.admitEntry, insertEntry]

/-- Settles O60: the header chunk by the place that is free or not, and the founding. -/
theorem delayAndListeningEnd : Obligations.DelayAndListeningEnd := by
  intro d s hr hd
  have hreached : reached s.tick d = true := (reached_iff _ _).mpr hd
  refine ⟨fun tg hp hq => ?_, fun hl he ho => ?_⟩
  · have hexec : exec .answerDelayEnd s = .next (s.beginService tg) := by
      simp only [exec, execAnswerDelayEnd, State.unlessReset, hr, Bool.false_eq_true, if_false,
        State.testDelay_of_reached hp hreached]
    have hrecords : s.snapshot.records.length = s.table.slots.length + s.table.history.length := by
      simp [State.snapshot]
    have hunqueued : s.tx.queued
        (Body.state (s.snapshot.chunk tg (1 + s.snapshot.records.length) 0)).kind = false := hq
    have htx : (s.beginService tg).tx =
        s.tx.offer (.state (s.snapshot.chunk tg (1 + s.snapshot.records.length) 0)) := rfl
    refine ⟨_, hexec, by simp, fun hroom => ?_, fun hfull => ?_, by rw [hrecords]; rfl, by simp, rfl, rfl, hrecords⟩
    · rw [htx, Transmitter.offer_of_room hunqueued hroom]
      exact ⟨rfl, rfl⟩
    · rw [htx, Transmitter.offer_of_full hunqueued hfull]
      exact ⟨rfl, (mem_insertOffer _ _ _).mpr (.inl rfl)⟩
  · simp only [exec, execListeningEnd, State.unlessReset, hr, Bool.false_eq_true, if_false,
      State.testListening_of_reached hl he hreached, State.found_of_empty ho]
    rfl

end Sys2Proof.Machine

/-! The station in reset, and SET_CONFIG (O19, O24). -/

namespace Sys2Proof.Machine

/-! ### A station in reset takes nothing (R135) -/

/-- The level of CSn after the command, `level` being the one before it (R158). -/
def Instr.csnAfter (level : Bool) : Instr → Bool
  | .transactionOpen _ => false
  | .transactionEnd => true
  | _ => level

section InReset
variable {s : State} (hr : s.inReset = true)
include hr

theorem State.unlessReset_of_inReset (f : State → State) : s.unlessReset f = s := if_pos hr

theorem State.taken_of_inReset (c : Instr) (f : State → State) : s.taken c f = s :=
  if_neg (by simp [State.takesCommand, hr])

theorem State.receives_of_inReset : s.receives = false := by simp [State.receives, hr]

theorem State.onLine_of_inReset : s.onLine = false := by simp [State.onLine, hr]

theorem State.sends_of_inReset (k : Kind) : s.sends k = false := by simp [State.sends, hr]

theorem State.endsIn_of_inReset (c : Commit) : s.endsIn c = false := by simp [State.endsIn, hr]

theorem State.completeSequenced_of_inReset (k : Kind) (f : State → State) : s.completeSequenced k f = s := by
  simp [State.completeSequenced, State.sends_of_inReset hr]

theorem State.start_of_inReset (n : Nat) : s.start n = s := by
  unfold State.start
  split
  · rfl
  · simp [State.mayStart, hr]

/-- The level of CSn, an input, is followed in reset too (R158). -/
theorem State.openTransaction_of_inReset (bytes : List Byte) :
    s.openTransaction bytes = { s with csnHigh := false } :=
  if_neg (by simp [hr])

theorem State.endTransaction_of_inReset : s.endTransaction = { s with csnHigh := true } := if_pos hr

/-- In reset every command but the two of RESETn leaves the station as it is, the level of CSn apart. -/
theorem exec_of_inReset (c : Instr) (hpin : c ≠ .pinReset) (hrelease : ∀ a r, c ≠ .resetRelease a r) :
    exec c s = .next { s with csnHigh := Instr.csnAfter s.csnHigh c } := by
  cases c with
  | pinReset => exact absurd rfl hpin
  | resetRelease addr rate => exact absurd rfl (hrelease addr rate)
  | transactionOpen shifted => exact congrArg _ (State.openTransaction_of_inReset hr _)
  | transactionEnd =>
    refine congrArg Host.Outcome.next ?_
    split
    next hcsn => exact (congrArg (fun b => { s with csnHigh := b }) hcsn : s = { s with csnHigh := true })
    next => exact State.endTransaction_of_inReset hr
  | refArrival | trigEdge | deferredOfferAdmitted | closeDueReached | claimExpiry | presenceDue | absence
  | requestDeadline | chunkDeadline | retryTick | answerDelayEnd | listeningEnd =>
    exact congrArg _ (State.unlessReset_of_inReset hr _)
  | setConfig | arm | disarm | takeOrder | listEvents | stageEvent | readStage | readStatus | readCounters
  | readRoster | ackFlags | askClear | askEpoch | restartStation =>
    exact congrArg _ (State.taken_of_inReset hr _ _)
  | unknownCommand code => exact congrArg _ ((ite_eq_left_iff).mpr fun _ => State.taken_of_inReset hr _ _)
  | takeOrderCommit | restartStationCommit | responseEnd =>
    exact congrArg _ (if_neg (by simp [State.endsIn_of_inReset hr]))
  | statusByteEnd | ackFlagsCommit | lineIdle | startBitTaken | breakEnd =>
    exact congrArg _ (if_neg (by simp [hr]))
  | transmissionStart recessive => exact congrArg _ (State.start_of_inReset hr _)
  | arbitrationLoss | bitError => exact congrArg _ (if_neg (by simp [State.onLine_of_inReset hr]))
  | ownClaimCompletes | ownCloseCompletes | ownEpochCompletes =>
    exact congrArg _ (State.completeSequenced_of_inReset hr _ _)
  | ownClearCompletes | ownStateCompletes | ownStateReqCompletes | ownPresenceCompletes =>
    exact congrArg _ (if_neg (by simp [State.sends_of_inReset hr]))
  | frameDiscarded | claimAccepted | closeAccepted | clearAccepted | epochAccepted | stateAccepted
  | stateReqAccepted | presenceAccepted =>
    exact congrArg _ (if_neg (by simp [State.receives_of_inReset hr]))

end InReset

/-- Settles O19: the two commands of RESETn, then every other one in reset. -/
theorem pinResetHoldsAndReleases : Obligations.PinResetHoldsAndReleases :=
  ⟨fun _ _ _ => ⟨rfl, fun hr => congrArg _ (if_pos hr), fun hr => congrArg _ (if_neg (by simp [hr]))⟩,
    fun c _ hr hpin hrelease => exec_of_inReset hr c hpin hrelease⟩

/-! ### SET_CONFIG (R137, R138) -/

theorem Params.inRange_iff (p : Params) : p.inRange = true ↔
    1 ≤ p.w.toNat ∧ p.w.toNat ≤ 127 ∧ 1 ≤ p.g.toNat ∧ p.g.toNat ≤ 63 ∧ 1 ≤ p.q.toNat ∧ p.q.toNat ≤ 16
      ∧ 16 ≤ p.p.toNat ∧ p.p.toNat ≤ 4095 ∧ 1 ≤ p.v.toNat ∧ p.v.toNat ≤ 3 := by
  simp [Params.inRange, and_assoc]

theorem State.configured_iff (s : State) : s.configured = true ↔ s.stepState ≠ .unconfigured := by
  simp [State.configured]

/-- Settles O24: the step state is tested before the ranges. -/
theorem setConfigIsAnswered : Obligations.SetConfigIsAnswered := by
  intro w g q h p v s htakes
  have hexec : exec (.setConfig w g q h p v) s = .next
      (if s.configured then s.answer .alreadyConfigured
       else if Params.inRange ⟨w, g, q, h, p, v⟩ then (s.configure ⟨w, g, q, h, p, v⟩).answer .ok
       else s.answer .badConfig) :=
    congrArg _ (State.taken_of_takesCommand _ _ _ htakes)
  have hunconfigured : s.stepState = .unconfigured → ¬s.configured = true :=
    fun hu hc => s.configured_iff.mp hc hu
  refine ⟨fun hc => ?_, fun hu hout => ?_, fun hu hin => ?_⟩
  · rw [hexec, if_pos (s.configured_iff.mpr hc)]
    rfl
  · rw [hexec, if_neg (hunconfigured hu), if_neg (mt (Params.inRange_iff _).mp hout)]
    rfl
  · rw [hexec, if_neg (hunconfigured hu), if_pos ((Params.inRange_iff _).mpr hin)]
    rfl

end Sys2Proof.Machine

/-! What each board command writes beside the port, and so what it leaves alone (O8, O11). -/

namespace Sys2Proof.Machine

/-! ### The port alone (R158 to R163) -/

/-- The two stations differ in the port, the level of CSn and the attention bit at most. -/
def State.PortOnly (s t : State) : Prop :=
  t = { s with port := t.port, csnHigh := t.csnHigh, attention := t.attention }

theorem State.PortOnly.refl (s : State) : s.PortOnly s := rfl

theorem State.PortOnly.ite {c : Prop} [Decidable c] {s t u : State} (ht : s.PortOnly t) (hu : s.PortOnly u) :
    s.PortOnly (if c then t else u) := by
  split
  · exact ht
  · exact hu

theorem State.respond_portOnly (r : Result) (data : List Byte) (c : Commit) (s : State) :
    s.PortOnly (s.respond r data c) := rfl

theorem State.answer_portOnly (r : Result) (s : State) : s.PortOnly (s.answer r) := rfl

theorem State.endStatusByte_portOnly (s : State) : s.PortOnly s.endStatusByte := rfl

theorem State.trail_portOnly (s : State) : s.PortOnly s.trail := by
  unfold State.trail State.statusGone
  split <;> rfl

theorem State.openTransaction_portOnly (bytes : List Byte) (s : State) : s.PortOnly (s.openTransaction bytes) := by
  unfold State.openTransaction State.shiftIn
  exact .ite (.ite rfl rfl) rfl

theorem State.readStage_portOnly (offset length : Byte) (s : State) : s.PortOnly (s.readStage offset length) := by
  unfold State.readStage
  split
  · exact s.answer_portOnly _
  · exact .ite (s.answer_portOnly _) (s.respond_portOnly _ _ _)

theorem State.readCounters_portOnly (first n : Byte) (s : State) : s.PortOnly (s.readCounters first n) :=
  .ite (s.respond_portOnly _ _ _) (s.answer_portOnly _)

theorem State.askRestart_portOnly (s : State) : s.PortOnly s.askRestart := by
  unfold State.askRestart
  split
  · exact s.answer_portOnly _
  · exact s.answer_portOnly _
  all_goals exact s.respond_portOnly _ _ _

/-! ### What a command writes (R137, R154, R155, R164, R166, R171, R173) -/

/-- What a board command writes beside the port, the commit of a restart apart. -/
inductive State.BoardWrites (s : State) : Instr → State → Prop where
  | nothing (c : Instr) : s.BoardWrites c s
  | configured (w g q h : Byte) (p : Half) (v : Byte) (hun : s.configured = false) :
      s.BoardWrites (.setConfig w g q h p v) (s.configure ⟨w, g, q, h, p, v⟩)
  | armed : s.BoardWrites .arm { s with armed := true }
  | disarmed : s.BoardWrites .disarm { s with armed := false }
  | marked (o : QueuedOrder) (rest : List QueuedOrder) (ho : s.orders = o :: rest) :
      s.BoardWrites .takeOrder { s with orders := { o with pending := true } :: rest }
  | taken : s.BoardWrites .takeOrderCommit { s with orders := commitOrders s.orders }
  | unmarked :
      s.BoardWrites .transactionEnd { s with orders := s.orders.map (fun o => { o with pending := false }) }
  | staged (n : Half) (bytes : List Byte) : s.BoardWrites (.stageEvent n) { s with stage := some bytes }
  | cleared (mask copy : Half) : s.BoardWrites .ackFlagsCommit (s.clearFlags mask copy)
  | askedClear : s.BoardWrites .askClear (s.admitEntry .clear)
  | askedEpoch : s.BoardWrites .askEpoch (s.admitEntry .epoch)

/-- The command takes the station `s` to `t`: it makes its write, and the port goes on. -/
def State.Boarded (c : Instr) (s t : State) : Prop := ∃ m, s.BoardWrites c m ∧ m.PortOnly t

theorem State.PortOnly.boarded {s t : State} (h : s.PortOnly t) (c : Instr) : s.Boarded c t := ⟨s, .nothing c, h⟩

theorem State.BoardWrites.answered {s m : State} {c : Instr} (h : s.BoardWrites c m) (r : Result)
    (data : List Byte) (k : Commit) : s.Boarded c (m.respond r data k) := ⟨m, h, m.respond_portOnly r data k⟩

theorem State.BoardWrites.trailed {s m : State} {c : Instr} (h : s.BoardWrites c m) : s.Boarded c m.trail :=
  ⟨m, h, m.trail_portOnly⟩

theorem State.Boarded.ite {p : Prop} [Decidable p] {c : Instr} {s t u : State} (ht : p → s.Boarded c t)
    (hu : ¬p → s.Boarded c u) : s.Boarded c (if p then t else u) := by
  split
  next hp => exact ht hp
  next hp => exact hu hp

theorem State.Boarded.taken {c : Instr} {s : State} {f : State → State} (hf : s.Boarded c (f s)) :
    s.Boarded c (s.taken c f) := .ite (fun _ => hf) fun _ => (State.PortOnly.refl s).boarded c

theorem State.setArmed_boarded {c : Instr} {a : Bool} {s : State} (hw : s.BoardWrites c { s with armed := a }) :
    s.Boarded c (s.setArmed a) :=
  .ite (fun _ => .ite (fun _ => (s.answer_portOnly _).boarded c) fun _ => hw.answered _ _ _)
    fun _ => (s.answer_portOnly _).boarded c

theorem State.takeOrder_boarded (s : State) : s.Boarded .takeOrder s.takeOrder := by
  unfold State.takeOrder
  split
  next => exact (s.respond_portOnly _ _ _).boarded _
  next o rest ho => exact (State.BoardWrites.marked o rest ho).answered _ _ _

theorem State.stageEvent_boarded (n : Half) (s : State) : s.Boarded (.stageEvent n) (s.stageEvent n) := by
  unfold State.stageEvent
  split
  · exact (s.answer_portOnly _).boarded _
  · exact (State.BoardWrites.staged n _).answered _ _ _

theorem State.commitFlags_boarded (s : State) : s.Boarded .ackFlagsCommit s.commitFlags := by
  unfold State.commitFlags
  split
  · exact (State.BoardWrites.cleared _ _).trailed
  all_goals exact (State.PortOnly.refl s).boarded _

theorem State.askFrame_boarded {c : Instr} {b : Body} {s : State} (hw : s.BoardWrites c (s.admitEntry b)) :
    s.Boarded c (s.askFrame b) :=
  .ite (fun _ => (s.answer_portOnly _).boarded c) fun _ =>
    .ite (fun _ => (s.answer_portOnly _).boarded c) fun _ => hw.answered _ _ _

theorem State.endTransaction_boarded (s : State) : s.Boarded .transactionEnd s.endTransaction :=
  .ite (fun _ => ⟨s, .nothing _, rfl⟩) fun _ => ⟨_, .unmarked, rfl⟩

/-- Every board command but the commit of a restart makes its own write at most. -/
theorem exec_boarded (c : Instr) {s t : State} (hc : c.boardSide = true) (hrestart : c ≠ .restartStationCommit)
    (h : exec c s = .next t) : s.Boarded c t := by
  have hsame : s.Boarded c s := (State.PortOnly.refl s).boarded c
  have hresponds : ∀ (r : Result) (data : List Byte) (k : Commit), s.Boarded c (s.respond r data k) :=
    fun r data k => (s.respond_portOnly r data k).boarded c
  have hanswers : ∀ r : Result, s.Boarded c (s.answer r) := fun r => (s.answer_portOnly r).boarded c
  cases c with
  | transactionOpen shifted => cases h; exact (s.openTransaction_portOnly shifted).boarded _
  | transactionEnd => cases h; exact .ite (fun _ => hsame) fun _ => s.endTransaction_boarded
  | statusByteEnd => cases h; exact .ite (fun _ => s.endStatusByte_portOnly.boarded _) fun _ => hsame
  | responseEnd => cases h; exact .ite (fun _ => s.trail_portOnly.boarded _) fun _ => hsame
  | setConfig w g q h' p v =>
    cases h
    refine .taken (.ite (fun _ => hanswers _) fun hun => .ite (fun _ => ?_) fun _ => hanswers _)
    exact (State.BoardWrites.configured w g q h' p v (Bool.eq_false_iff.mpr hun)).answered _ _ _
  | arm => cases h; exact .taken (State.setArmed_boarded .armed)
  | disarm => cases h; exact .taken (State.setArmed_boarded .disarmed)
  | takeOrder => cases h; exact .taken s.takeOrder_boarded
  | takeOrderCommit => cases h; exact .ite (fun _ => State.BoardWrites.taken.trailed) fun _ => hsame
  | listEvents | readStatus | readRoster => cases h; exact .taken (hresponds _ _ _)
  | stageEvent number => cases h; exact .taken (s.stageEvent_boarded number)
  | readStage offset length => cases h; exact .taken ((s.readStage_portOnly offset length).boarded _)
  | readCounters first n => cases h; exact .taken ((s.readCounters_portOnly first n).boarded _)
  | ackFlags mask => cases h; exact .taken (hresponds _ _ _)
  | ackFlagsCommit => cases h; exact .ite (fun _ => s.commitFlags_boarded) fun _ => hsame
  | askClear => cases h; exact .taken (State.askFrame_boarded .askedClear)
  | askEpoch => cases h; exact .taken (State.askFrame_boarded .askedEpoch)
  | restartStation => cases h; exact .taken (s.askRestart_portOnly.boarded _)
  | restartStationCommit => exact absurd rfl hrestart
  | unknownCommand code => cases h; exact .ite (fun _ => hsame) fun _ => .taken (hanswers _)
  | _ => cases hc

/-! ### What it leaves alone -/

/-- What no board command touches. -/
def State.busParts (s : State) := (s.inReset, s.addr, s.rate, s.tick, s.rx, s.rxRecessive, s.roster, s.lastSent,
  s.requester, s.responder, s.counters, s.pending)

/-- What SET_CONFIG alone writes, the arm state apart. -/
def State.configParts (s : State) :=
  (s.params, s.fingerprint, s.table, s.stepState, s.listeningEnd, s.lastClaimed, s.streak)

theorem State.Boarded.busParts {c : Instr} {s t : State} (h : s.Boarded c t) : t.busParts = s.busParts := by
  obtain ⟨m, hw, hport⟩ := h
  rw [hport]
  cases hw <;> rfl

theorem State.Boarded.tx {c : Instr} {s t : State} (h : s.Boarded c t) :
    t.tx = { s.tx with outbox := t.tx.outbox }
      ∧ (c ≠ .askClear → c ≠ .askEpoch → t.tx.outbox = s.tx.outbox) := by
  obtain ⟨m, hw, hport⟩ := h
  rw [hport]
  cases hw with
  | askedClear => exact ⟨rfl, fun hclear _ => absurd rfl hclear⟩
  | askedEpoch => exact ⟨rfl, fun _ hepoch => absurd rfl hepoch⟩
  | _ => exact ⟨rfl, fun _ _ => rfl⟩

theorem State.Boarded.configParts {c : Instr} {s t : State} (h : s.Boarded c t)
    (hc : ∀ w g q h p v, c ≠ .setConfig w g q h p v) : t.configParts = s.configParts := by
  obtain ⟨m, hw, hport⟩ := h
  rw [hport]
  cases hw with
  | configured w g q h' p v => exact absurd rfl (hc w g q h' p v)
  | _ => rfl

theorem State.Boarded.armed {c : Instr} {s t : State} (h : s.Boarded c t)
    (hc : ∀ w g q h p v, c ≠ .setConfig w g q h p v) (harm : c ≠ .arm) (hdisarm : c ≠ .disarm) :
    t.armed = s.armed := by
  obtain ⟨m, hw, hport⟩ := h
  rw [hport]
  cases hw with
  | configured w g q h' p v => exact absurd rfl (hc w g q h' p v)
  | armed => exact absurd rfl harm
  | disarmed => exact absurd rfl hdisarm
  | _ => rfl

theorem State.Boarded.orders {c : Instr} {s t : State} (h : s.Boarded c t) (htake : c ≠ .takeOrder)
    (hcommit : c ≠ .takeOrderCommit) (hend : c ≠ .transactionEnd) : t.orders = s.orders := by
  obtain ⟨m, hw, hport⟩ := h
  rw [hport]
  cases hw with
  | marked => exact absurd rfl htake
  | taken => exact absurd rfl hcommit
  | unmarked => exact absurd rfl hend
  | _ => rfl

theorem State.Boarded.stage {c : Instr} {s t : State} (h : s.Boarded c t) (hc : ∀ n, c ≠ .stageEvent n) :
    t.stage = s.stage := by
  obtain ⟨m, hw, hport⟩ := h
  rw [hport]
  cases hw with
  | staged n => exact absurd rfl (hc n)
  | _ => rfl

theorem State.Boarded.flags {c : Instr} {s t : State} (h : s.Boarded c t) (hc : c ≠ .ackFlagsCommit) :
    t.flags = s.flags := by
  obtain ⟨m, hw, hport⟩ := h
  rw [hport]
  cases hw with
  | cleared => exact absurd rfl hc
  | _ => rfl

/-- Settles O11: each command's write, read part by part. -/
theorem boardSideLeavesTheBusSide : Obligations.BoardSideLeavesTheBusSide := by
  intro c s t hc h hrestart
  have hb := exec_boarded c hc hrestart h
  have hparts := hb.busParts
  simp only [State.busParts, Prod.mk.injEq] at hparts
  obtain ⟨hreset, haddr, hrate, htick, hrx, hcount, hroster, hsent, hrequester, hresponder, hcounters, hpending⟩ :=
    hparts
  obtain ⟨htx, houtbox⟩ := hb.tx
  refine ⟨hreset, haddr, hrate, htick, hrx, hcount, hroster, hsent, hrequester, hresponder, hcounters, hpending,
    htx, houtbox, fun hconfig => ?_, hb.orders, hb.stage, hb.flags⟩
  have hkept := hb.configParts hconfig
  simp only [State.configParts, Prod.mk.injEq] at hkept
  obtain ⟨hparams, hfingerprint, htable, hstep, hlistening, hclaimed, hstreak⟩ := hkept
  exact ⟨hparams, hfingerprint, htable, hstep, hlistening, hclaimed, hstreak, hb.armed hconfig⟩

/-! ### The configuration (R136, R138) -/

/-- An accepted SET_CONFIG is the one write of the parameters, and it finds none (R138). -/
theorem State.Boarded.configuration {c : Instr} {s t : State} (h : s.Boarded c t) (hc : s.configured = true) :
    t.params = s.params ∧ t.fingerprint = s.fingerprint := by
  obtain ⟨m, hw, hport⟩ := h
  rw [hport]
  cases hw with
  | configured w g q h' p v hun => exact absurd hc (by simp [hun])
  | _ => exact ⟨rfl, rfl⟩

/-- Settles O8: the commit of a restart, the other board commands by their write, and the bus side. -/
theorem configurationIsHeld : Obligations.ConfigurationIsHeld := by
  intro c s t h hpin hrelease
  by_cases hrestart : c = .restartStationCommit
  · subst hrestart
    cases h
    split
    · split <;> simp
    · exact ⟨rfl, rfl, fun _ => ⟨rfl, rfl⟩⟩
  cases hside : c.boardSide with
  | true =>
    obtain ⟨-, haddr, hrate, -⟩ := boardSideLeavesTheBusSide c s t hside h hrestart
    exact ⟨haddr, hrate, (exec_boarded c hside hrestart h).configuration⟩
  | false =>
    obtain ⟨-, -, haddr, hrate, hparams, hfingerprint, -⟩ := busSideLeavesTheBoardSide c s t hside h hpin hrelease
    exact ⟨haddr, hrate, fun _ => ⟨hparams, hfingerprint⟩⟩

end Sys2Proof.Machine

/-! Counters, flags, attention and orders under every command, and the lines ALERT and ORDER (O7). -/

namespace Sys2Proof.Machine

/-! ### Flags (R163, R172) -/

/-- A flag once set stays set under further settings. -/
theorem State.hasFlag_setFlags_of_hasFlag {f : Flag} {s : State} (m : BitVec 9) (h : s.hasFlag f = true) :
    (s.setFlags m).hasFlag f = true := by
  have hor : (s.flags ||| m) &&& f.mask = (s.flags &&& f.mask) ||| (m &&& f.mask) := by
    ext i hi
    simp [Bool.and_or_distrib_right]
  simp only [State.hasFlag, State.setFlags_flags, bne_iff_ne, ne_eq, hor] at h ⊢
  exact fun hzero => h (BitVec.or_eq_zero_iff.mp hzero).1

/-- Without a transition the flags stand as they were. -/
theorem State.setFlags_flags_of_not_newlySet {m : BitVec 9} {s : State} (h : s.newlySet m = false) :
    (s.setFlags m).flags = s.flags := by
  have hzero : m &&& ~~~s.flags = 0 := by simpa [State.newlySet] using h
  ext i hi
  have hbit : (m &&& ~~~s.flags)[i] = false := by simp [hzero]
  rw [BitVec.getElem_and, BitVec.getElem_not] at hbit
  rw [State.setFlags_flags, BitVec.getElem_or]
  revert hbit
  cases s.flags[i] <;> simp

theorem State.hasFlag_of_clearFlags {f : Flag} {mask copy : Half} {s : State}
    (h : (s.clearFlags mask copy).hasFlag f = true) : s.hasFlag f = true := by
  have hcomm : s.flags &&& ~~~((mask &&& copy).setWidth 9) &&& f.mask
      = s.flags &&& f.mask &&& ~~~((mask &&& copy).setWidth 9) := by
    rw [BitVec.and_assoc, BitVec.and_comm (~~~_), BitVec.and_assoc]
  simp only [State.hasFlag, State.clearFlags, bne_iff_ne, ne_eq, hcomm] at h ⊢
  exact fun hzero => h (by rw [hzero]; simp)

/-- The nine masks cover the flag word (R178). -/
theorem exists_mask_of_ne_zero (v : BitVec 9) (h : v ≠ 0) : ∃ f : Flag, v &&& f.mask ≠ 0 := by
  by_contra hnone
  push Not at hnone
  have hmasks : v = (v &&& Flag.claimRefused.mask) ||| (v &&& Flag.orderMissed.mask)
      ||| (v &&& Flag.ordersFlushed.mask) ||| (v &&& Flag.leftStep.mask) ||| (v &&& Flag.conflict.mask)
      ||| (v &&& Flag.muted.mask) ||| (v &&& Flag.diverged.mask) ||| (v &&& Flag.selfAsserted.mask)
      ||| (v &&& Flag.addressClash.mask) := by
    clear h hnone
    revert v
    decide
  exact h (by rw [hmasks]; simp [hnone])

theorem State.alertLine_iff (s : State) :
    s.alertLine = true ↔ s.inReset = false ∧ ∃ f : Flag, s.hasFlag f = true := by
  have hflags : s.flags ≠ 0 ↔ ∃ f : Flag, s.hasFlag f = true := by
    simp only [State.hasFlag, bne_iff_ne]
    exact ⟨exists_mask_of_ne_zero s.flags, fun ⟨f, hf⟩ hzero => hf (by simp [hzero])⟩
  simp only [State.alertLine, Bool.and_eq_true, Bool.not_eq_true', bne_iff_ne, hflags]

theorem State.orderLine_iff (s : State) : s.orderLine = true ↔ s.inReset = false ∧ s.orders ≠ [] := by
  simp [State.orderLine]

/-! ### What only rises -/

/-- Attention is raised, and noted against the status byte (R163). -/
def State.Noticed (s : State) : Prop := s.attention = true ∧ s.port.fresh = true

/-- No counter falls, no flag is cleared, a flag newly set is noticed, and an order queue that holds an order
goes on holding one unless `empties`. -/
structure State.OnlyRises (empties : Bool) (s t : State) : Prop where
  counters : ∀ k, (s.counter k).toNat ≤ (t.counter k).toNat
  flags : ∀ f, s.hasFlag f = true → t.hasFlag f = true
  newly : ∀ f, s.hasFlag f = false → t.hasFlag f = true → t.Noticed
  noticed : s.Noticed → t.Noticed
  orders : empties = false → s.orders ≠ [] → t.orders ≠ []

/-- The parts of the station these laws read. -/
def State.tallies (s : State) := (s.counters, s.flags, s.attention, s.port.fresh, s.orders)

@[simp] theorem State.tallies_eq_iff (s t : State) : t.tallies = s.tallies ↔
    t.counters = s.counters ∧ t.flags = s.flags ∧ t.attention = s.attention ∧ t.port.fresh = s.port.fresh
      ∧ t.orders = s.orders := by
  simp [State.tallies]

section
variable {b : Bool}

theorem State.OnlyRises.of_same {s t : State} (h : t.tallies = s.tallies) : s.OnlyRises b t := by
  obtain ⟨hcounters, hflags, hattention, hfresh, horders⟩ := (State.tallies_eq_iff s t).mp h
  have hhas : ∀ f, t.hasFlag f = s.hasFlag f := fun f => by simp only [State.hasFlag, hflags]
  refine ⟨fun k => ?_, fun f hf => (hhas f).trans hf, fun f hs ht => ?_, fun hn => ?_, fun _ ho => horders ▸ ho⟩
  · simp only [State.counter, hcounters, le_refl]
  · rw [hhas, hs] at ht; cases ht
  · exact ⟨hattention.trans hn.1, hfresh.trans hn.2⟩

theorem State.OnlyRises.refl (s : State) : s.OnlyRises b s := .of_same rfl

theorem State.OnlyRises.trans {s t u : State} (h : s.OnlyRises b t) (g : t.OnlyRises b u) : s.OnlyRises b u := by
  refine ⟨fun k => (h.counters k).trans (g.counters k), fun f hf => g.flags f (h.flags f hf), fun f hs hu => ?_,
    fun hn => g.noticed (h.noticed hn), fun hb ho => g.orders hb (h.orders hb ho)⟩
  cases ht : t.hasFlag f with
  | true => exact g.noticed (h.newly f hs ht)
  | false => exact g.newly f ht hu

/-- An operation followed by one that touches none of these parts. -/
theorem State.OnlyRises.then {s t u : State} (h : s.OnlyRises b t) (hsame : u.tallies = t.tallies) :
    s.OnlyRises b u := h.trans (.of_same hsame)

/-- An operation that comes after one that touches none of these parts. -/
theorem State.OnlyRises.after {s t u : State} (g : t.OnlyRises b u) (hsame : t.tallies = s.tallies) :
    s.OnlyRises b u := (State.OnlyRises.of_same hsame).trans g

theorem State.OnlyRises.ite {c : Prop} [Decidable c] {s t u : State} (ht : s.OnlyRises b t)
    (hu : s.OnlyRises b u) : s.OnlyRises b (if c then t else u) := by
  split
  · exact ht
  · exact hu

theorem State.unlessReset_onlyRises {s : State} {f : State → State} (hf : s.OnlyRises b (f s)) :
    s.OnlyRises b (s.unlessReset f) := .ite (.refl s) hf

/-! ### The updates themselves (R72, R152, R163, R174) -/

theorem State.rise_onlyRises (c : Counter) (n : Nat) (s : State) : s.OnlyRises b (s.rise c n) := by
  refine ⟨fun k => ?_, fun _ => id, fun f hs ht => absurd (hs.symm.trans ht) (by decide), id, fun _ => id⟩
  by_cases hk : c = k
  · rw [hk, State.counter_rise_self]; exact le_satAdd16 _ _
  · rw [State.counter_rise_other _ _ _ _ hk]

theorem State.OnlyRises.rise {s t : State} (h : s.OnlyRises b t) (c : Counter) (n : Nat) :
    s.OnlyRises b (t.rise c n) := h.trans (State.rise_onlyRises c n t)

theorem State.OnlyRises.withdraw {s t : State} (h : s.OnlyRises b t) (p : Body → Bool) :
    s.OnlyRises b (t.withdraw p) := (h.rise .claimsWithdrawn (t.tx.withdrawnClaims p)).then rfl

theorem State.OnlyRises.abandonResponder {s t : State} (h : s.OnlyRises b t) :
    s.OnlyRises b t.abandonResponder :=
  State.OnlyRises.withdraw (h.then (u := { t with responder := Responder.idle }) rfl) (Body.isKind .state)

theorem State.withdraw_onlyRises (p : Body → Bool) (s : State) : s.OnlyRises b (s.withdraw p) :=
  (State.OnlyRises.refl s).withdraw p

theorem State.setFlags_onlyRises (m : BitVec 9) (s : State) : s.OnlyRises b (s.setFlags m) := by
  refine ⟨fun _ => le_refl _, fun f => State.hasFlag_setFlags_of_hasFlag m, fun f hs ht => ?_,
    fun hn => ⟨by simp [hn.1], by simp [hn.2]⟩, fun _ => id⟩
  cases hnew : s.newlySet m with
  | true => exact ⟨by simp [hnew], by simp [hnew]⟩
  | false =>
    rw [State.hasFlag, State.setFlags_flags_of_not_newlySet hnew] at ht
    exact absurd (hs.symm.trans ht) (by decide)

theorem State.setFlag_onlyRises (f : Flag) (s : State) : s.OnlyRises b (s.setFlag f) := s.setFlags_onlyRises _

theorem State.OnlyRises.setFlag {s t : State} (h : s.OnlyRises b t) (f : Flag) : s.OnlyRises b (t.setFlag f) :=
  h.trans (t.setFlag_onlyRises f)

/-- The queue is written, and not emptied. -/
theorem State.orders_onlyRises {q : List QueuedOrder} {s : State} (hq : s.orders ≠ [] → q ≠ []) :
    s.OnlyRises b { s with orders := q } :=
  ⟨fun _ => le_refl _, fun _ => id, fun _ hs ht => absurd (hs.symm.trans ht) (by decide), id, fun _ => hq⟩

/-- The queue is written by a command that may empty it. -/
theorem State.emptied_onlyRises (q : List QueuedOrder) (s : State) : s.OnlyRises true { s with orders := q } :=
  ⟨fun _ => le_refl _, fun _ => id, fun _ hs ht => absurd (hs.symm.trans ht) (by decide), id,
    fun hb => Bool.noConfusion hb⟩

/-! ### Ordered frames (R21 to R46) -/

theorem State.offerOrder_onlyRises (o : Order) (s : State) : s.OnlyRises b (s.offerOrder o) := by
  have hqueued : ∀ q, s.OnlyRises b { s with orders := q ++ [QueuedOrder.mk o false] } :=
    fun q => State.orders_onlyRises fun _ => List.append_ne_nil_of_right_ne_nil q (by simp)
  unfold State.offerOrder
  split
  · exact .refl s
  · exact ((hqueued _).rise _ _).setFlag _
  · exact (s.rise_onlyRises _ _).setFlag _
  · exact (hqueued _).rise _ _

theorem State.applyClose_onlyRises (a : Addr) (n : Half) (s : State) : s.OnlyRises b (s.applyClose a n) := by
  unfold State.applyClose
  split
  · exact .after (State.withdraw_onlyRises _ _) rfl
  · dsimp only
    refine State.OnlyRises.withdraw ?_ _
    split
    · exact .after (State.offerOrder_onlyRises _ _) rfl
    · exact .of_same rfl

theorem State.applyEpoch_onlyRises (a : Addr) (s : State) : s.OnlyRises b (s.applyEpoch a) :=
  .ite (.after (State.withdraw_onlyRises _ _) rfl) (.of_same rfl)

theorem State.applyFrame_onlyRises (a : Addr) (body : Sequenced) (s : State) :
    s.OnlyRises b (s.applyFrame a body) := by
  have hcounted : s.OnlyRises b
      { s.rise .framesApplied 1 with table := s.table.advance (digestedBytes a body) } :=
    (s.rise_onlyRises _ _).then rfl
  cases body with
  | claim stamp epoch => exact hcounted.then (by simp [State.applyFrame])
  | close n => exact hcounted.trans (State.applyClose_onlyRises a n _)
  | epoch => exact hcounted.trans (State.applyEpoch_onlyRises a _)

theorem State.applyHeld_onlyRises (fs : List Held) (s : State) : s.OnlyRises b (s.applyHeld fs) := by
  induction fs generalizing s with
  | nil => exact .refl s
  | cons f fs ih => exact (s.applyFrame_onlyRises f.sender f.body).trans (ih _)

theorem State.flushOrders_onlyRises (s : State) : s.OnlyRises true s.flushOrders :=
  (s.setFlags_onlyRises (if !s.orders.isEmpty then Flag.ordersFlushed.mask else 0)).trans
    (State.emptied_onlyRises [] _)

/-- A CLEAR alone flushes the queue (R40, R156). -/
theorem State.applyClear_onlyRises (s : State) : s.OnlyRises true s.applyClear := by
  have hcounted : s.OnlyRises true
      { s.rise .framesApplied 1 with table := s.table.cleared s.fingerprint, streak := 0 } :=
    (s.rise_onlyRises _ _).then rfl
  exact ((hcounted.trans (State.flushOrders_onlyRises _)).withdraw (Body.isKind .close)).abandonResponder

/-! ### The requester (R107 to R124, R132) -/

theorem State.selfAssert_onlyRises (s : State) : s.OnlyRises b s.selfAssert :=
  (s.setFlag_onlyRises .selfAsserted).then rfl

theorem State.fail_onlyRises (k : FailKind) (s : State) : s.OnlyRises b (s.fail k) := by
  obtain ⟨hnext, hassert, hwait⟩ := s.fail_cases k
  generalize unansweredAfter k s.requester.unanswered = n at hnext hassert hwait
  have hfailed : s.OnlyRises b (s.failed n) := (s.rise_onlyRises .resyncsFailed 1).then rfl
  by_cases hlt : n < 4
  · rw [hnext hlt]; exact hfailed.then rfl
  · cases ha : s.selfAsserts with
    | false => rw [hwait (not_lt.mp hlt) ha]; exact hfailed.then rfl
    | true => rw [hassert (not_lt.mp hlt) ha]; exact hfailed.trans (State.selfAssert_onlyRises _)

theorem State.holdFrame_onlyRises (a : Addr) (body : Sequenced) (n : Half) (s : State) :
    s.OnlyRises b (s.holdFrame a body n) :=
  .ite (.ite (.of_same rfl) (s.fail_onlyRises _)) (.refl s)

theorem State.clearOutOfStep_onlyRises (tick : Tick) (epoch : Byte) (s : State) :
    s.OnlyRises true (s.clearOutOfStep tick epoch) := by
  have hwithdrawn : s.OnlyRises true
      ({ s with requester := Requester.idle }.withdraw (Body.isKind .stateReq)) :=
    .after (State.withdraw_onlyRises _ _) rfl
  exact (hwithdrawn.trans (State.applyClear_onlyRises _)).then rfl

theorem State.enterConflict_onlyRises (s : State) : s.OnlyRises b s.enterConflict :=
  ((s.setFlag_onlyRises .conflict).withdraw _).then rfl

theorem State.install_onlyRises (h : SnapHeader) (records : List EventRecord) (s : State) :
    s.OnlyRises b (s.install h records) := by
  unfold State.install
  split
  next => exact s.fail_onlyRises _
  next marked _ =>
    have happlied : s.OnlyRises b (State.applyHeld marked { s with table := installedTable h records }) :=
      .after (State.applyHeld_onlyRises _ _) rfl
    exact (happlied.rise .resyncsDone 1).then rfl

theorem State.examineHeader_onlyRises (a : Addr) (n : Nat) (body : StateBody) (s : State) :
    s.OnlyRises b (s.examineHeader a n body) := by
  unfold State.examineHeader
  split
  · exact s.enterConflict_onlyRises
  split
  · exact s.fail_onlyRises _
  · exact .ite (.ite (.after (State.install_onlyRises _ _ _) rfl) (.of_same rfl)) (s.fail_onlyRises _)

theorem State.takeChunk_onlyRises (c : Receiving) (n : Nat) (body : StateBody) (s : State) :
    s.OnlyRises b (s.takeChunk c n body) := by
  unfold State.takeChunk
  refine .ite (s.fail_onlyRises _) (.ite (s.fail_onlyRises _) ?_)
  split
  · exact s.fail_onlyRises _
  · exact .ite (s.fail_onlyRises _) (.ite (s.install_onlyRises _ _) (.of_same rfl))

theorem State.requesterState_onlyRises (a : Addr) (n : Nat) (body : StateBody) (s : State) :
    s.OnlyRises b (s.requesterState a n body) := by
  unfold State.requesterState
  refine .ite (.refl s) ?_
  split
  · exact .ite (s.examineHeader_onlyRises a n body) (.refl s)
  · exact .ite (s.takeChunk_onlyRises _ n body) (.refl s)
  · exact .refl s

/-! ### The responder (R127) -/

theorem State.headerHeard_onlyRises (target : Addr) (s : State) : s.OnlyRises b (s.headerHeard target) := by
  have hlatch : s.OnlyRises b (if s.responder.latch = some target then
      { s with responder := { s.responder with latch := none } } else s) := .ite (.of_same rfl) (.refl s)
  unfold State.headerHeard
  dsimp only
  split
  · exact .ite (hlatch.then (by simp)) hlatch
  · exact .ite ((hlatch.withdraw (Body.isKind .state)).then (by simp)) hlatch
  · exact hlatch

theorem State.responderState_onlyRises (body : StateBody) (s : State) : s.OnlyRises b (s.responderState body) := by
  unfold State.responderState
  refine .ite ?_ (.refl s)
  split
  · exact s.headerHeard_onlyRises _
  · exact .refl s

/-! ### Acceptances (R66) -/

theorem State.enterOutOfStep_onlyRises (s : State) : s.OnlyRises b s.enterOutOfStep := by
  have hwithdrawn : s.OnlyRises b ({ s with stepState := .outOfStep }.withdraw (fun x => x.kind.ordered)) :=
    .after (State.withdraw_onlyRises _ _) rfl
  exact State.OnlyRises.then (hwithdrawn.then (u := State.dropDues _) rfl).abandonResponder rfl

theorem State.leaveStep_onlyRises (s : State) : s.OnlyRises b s.leaveStep :=
  (s.setFlag_onlyRises .leftStep).trans (State.enterOutOfStep_onlyRises _)

theorem State.vote_onlyRises (h : Header) (s : State) : s.OnlyRises b (s.vote h) := by
  have hcounted : s.OnlyRises b (s.countDisagreement h.sender) := (s.rise_onlyRises _ _).then rfl
  obtain ⟨t, ht⟩ : ∃ t, t = s.vote h := ⟨_, rfl⟩
  have hcases := s.vote_cases h
  rw [← ht] at hcases ⊢
  rcases hcases with hq | ⟨hleaves, -⟩
  · cases hq with
    | noVote => exact .refl s
    | agree => exact .of_same rfl
    | below => exact hcounted
    | diverged => exact (hcounted.setFlag .diverged).then rfl
  · rw [hleaves]
    exact hcounted.trans (State.leaveStep_onlyRises _)

theorem State.epochArrival_onlyRises (s : State) : s.OnlyRises b s.epochArrival :=
  .ite (.after (State.withdraw_onlyRises _ _) rfl) (.refl s)

theorem State.arrive_onlyRises (h : Header) (carried : Option Half) (epoch : Bool) (s : State) :
    s.OnlyRises b (s.arrive h carried epoch) := by
  have hclash : s.OnlyRises b (s.receiverDone.setFlagIf (h.sender == s.addr) .addressClash) :=
    .after (State.setFlags_onlyRises _ _) rfl
  exact (State.OnlyRises.ite (hclash.trans (State.epochArrival_onlyRises _)) hclash).then rfl

theorem State.monitor_onlyRises (h : Header) (s : State) : s.OnlyRises b (s.monitor h) := by
  have hjoined : s.OnlyRises b s.join := .after (State.enterOutOfStep_onlyRises _) rfl
  exact .ite (.ite hjoined (.refl s)) (s.vote_onlyRises h)

theorem State.accept_onlyRises (h : Header) (carried : Option Half) (epoch : Bool) (s : State) :
    s.OnlyRises b (s.accept h carried epoch) :=
  (s.arrive_onlyRises h carried epoch).trans (State.monitor_onlyRises h _)

theorem State.ownSequenced_onlyRises (h : Header) (body : Sequenced) (s : State) :
    s.OnlyRises b (s.ownSequenced h body) := by
  unfold State.ownSequenced
  split
  · exact s.applyFrame_onlyRises _ _
  · exact s.applyFrame_onlyRises _ _
  · exact s.holdFrame_onlyRises _ _ _
  all_goals exact .refl s

theorem State.ownClear_onlyRises (tick : Tick) (epoch : Byte) (s : State) :
    s.OnlyRises true (s.ownClear tick epoch) := by
  unfold State.ownClear
  split
  · exact s.applyClear_onlyRises
  · exact s.applyClear_onlyRises
  · exact s.clearOutOfStep_onlyRises _ _
  all_goals exact .refl s

theorem State.ownState_onlyRises (h : Header) (body : List Byte) (s : State) :
    s.OnlyRises b (s.ownState h body) := by
  unfold State.ownState
  split
  · exact .refl s
  split
  · exact s.requesterState_onlyRises _ _ _
  · exact s.responderState_onlyRises _
  all_goals exact .refl s

/-! ### Transmissions (R56 to R61) -/

theorem State.returnEntry_onlyRises (e : Entry) (f : Entry → Entry) (s : State) :
    s.OnlyRises b (s.returnEntry e f) := by
  have hreturned : s.OnlyRises b
      { s.rise .claimsWithdrawn s.tx.returnedClaims with tx := s.tx.returnSending f } :=
    (s.rise_onlyRises _ _).then rfl
  exact .ite (hreturned.then (by simp)) hreturned

theorem State.loseArbitration_onlyRises (e : Entry) (s : State) : s.OnlyRises b (s.loseArbitration e) := by
  have hcounted : s.OnlyRises b ({ s with rx := .receiving }.lineBusy.rise .arbLosses 1) :=
    .after (State.rise_onlyRises _ _ _) rfl
  exact hcounted.trans (State.returnEntry_onlyRises e id _)

theorem State.enterMute_onlyRises (s : State) : s.OnlyRises b s.enterMute :=
  ((s.setFlag_onlyRises .muted).withdraw _).then rfl

theorem State.discard_onlyRises (e : Entry) (s : State) : s.OnlyRises b (s.discard e) := by
  have hcounted : s.OnlyRises b { s.rise .txDiscards 1 with
      tx := { s.tx.dropSending with discards := s.tx.discards + 1 } } := (s.rise_onlyRises _ _).then rfl
  exact .ite (hcounted.trans (State.enterMute_onlyRises _)) (hcounted.then (by simp))

theorem State.bitError_onlyRises (e : Entry) (s : State) : s.OnlyRises b (s.bitError e) := by
  have hbroken : s.OnlyRises b (s.driveBreak.rise .txAborts 1) := .after (State.rise_onlyRises _ _ _) rfl
  exact .ite (hbroken.trans (State.discard_onlyRises e _)) (hbroken.trans (State.returnEntry_onlyRises e _ _))

/-- The completion of an own ordered frame, `f` being what comes before its application. -/
theorem State.completeSequenced_onlyRises (k : Kind) {f : State → State} (hf : ∀ x : State, x.OnlyRises b (f x))
    (s : State) : s.OnlyRises b (s.completeSequenced k f) := by
  have hdone : s.OnlyRises b (f s.completed) := .after (hf _) rfl
  unfold State.completeSequenced
  refine .ite ?_ (.refl s)
  split
  · exact .ite (hdone.trans (State.applyFrame_onlyRises _ _ _)) hdone
  · exact .refl s

theorem State.discardFrame_onlyRises (s : State) : s.OnlyRises b s.discardFrame :=
  .after (State.rise_onlyRises .rxBad 1 _) rfl

/-! ### Ticks (R74) and edges (R79) -/

theorem State.testExpiry_onlyRises (s : State) : s.OnlyRises b s.testExpiry := s.withdraw_onlyRises _

theorem State.testRequest_onlyRises (s : State) : s.OnlyRises b s.testRequest := by
  unfold State.testRequest
  split
  · exact .ite (s.fail_onlyRises _) (.refl s)
  · exact .refl s

theorem State.testChunk_onlyRises (s : State) : s.OnlyRises b s.testChunk := by
  unfold State.testChunk
  split
  · exact .ite (s.fail_onlyRises _) (.refl s)
  · exact .refl s

theorem State.offerTick_onlyRises (s : State) : s.OnlyRises b s.offerTick := by
  have hfirst : s.OnlyRises b s.testExpiry.scheduleCloses.offerPresence.markAbsent := s.testExpiry_onlyRises.then rfl
  have hresync := (hfirst.trans (State.testRequest_onlyRises _)).trans (State.testChunk_onlyRises _)
  exact hresync.then (by simp [State.offerTick])

theorem State.decideEdge_onlyRises (s : State) : s.OnlyRises b s.decideEdge :=
  .ite (s.rise_onlyRises _ _) (.ite (s.rise_onlyRises _ _)
    (.ite (.of_same rfl) ((s.rise_onlyRises _ _).setFlag _)))

end

/-! ### Every command -/

/-- The command may leave the Order Queue empty that held an order: the commit of a TAKE_ORDER, or a CLEAR. -/
def Instr.emptiesOrders : Instr → Bool
  | .takeOrderCommit | .ownClearCompletes | .clearAccepted _ _ _ => true
  | _ => false

theorem Instr.emptiesOrders_eq_false {c : Instr} (htake : c ≠ .takeOrderCommit) (hown : c ≠ .ownClearCompletes)
    (hclear : ∀ h tk ep, c ≠ .clearAccepted h tk ep) : Instr.emptiesOrders c = false := by
  cases c with
  | takeOrderCommit => exact absurd rfl htake
  | ownClearCompletes => exact absurd rfl hown
  | clearAccepted h tk ep => exact absurd rfl (hclear h tk ep)
  | _ => rfl

/-- What a command on the bus side does to counters, flags and orders. -/
theorem exec_busSide_onlyRises (c : Instr) {s t : State} (hc : c.boardSide = false) (hpin : c ≠ .pinReset)
    (h : exec c s = .next t) : s.OnlyRises (Instr.emptiesOrders c) t := by
  have hcompleted : ∀ {b : Bool}, s.OnlyRises b s.completed := .of_same rfl
  cases c with
  | pinReset => exact absurd rfl hpin
  | resetRelease addr rate => cases h; exact .ite (.of_same rfl) (.refl s)
  | refArrival =>
    cases h
    exact State.unlessReset_onlyRises (.ite (.after (State.offerTick_onlyRises _) rfl) (.refl s))
  | trigEdge =>
    cases h
    exact State.unlessReset_onlyRises ((s.rise_onlyRises _ _).trans (State.decideEdge_onlyRises _))
  | transmissionStart recessive => cases h; exact .of_same (by simp)
  | arbitrationLoss =>
    cases h
    refine .ite ?_ (.refl s)
    split
    · exact s.loseArbitration_onlyRises _
    · exact .refl s
  | bitError =>
    cases h
    refine .ite ?_ (.refl s)
    split
    · exact s.bitError_onlyRises _
    · exact .refl s
  | deferredOfferAdmitted => cases h; exact State.unlessReset_onlyRises (.of_same rfl)
  | ownClaimCompletes => cases h; exact s.completeSequenced_onlyRises _ fun x => x.rise_onlyRises _ _
  | ownCloseCompletes => cases h; exact s.completeSequenced_onlyRises _ .refl
  | ownEpochCompletes => cases h; exact s.completeSequenced_onlyRises _ State.epochArrival_onlyRises
  | ownClearCompletes =>
    cases h
    exact .ite (.ite (hcompleted.trans (State.applyClear_onlyRises _)) hcompleted) (.refl s)
  | ownStateCompletes => cases h; exact .ite (hcompleted.then (by simp)) (.refl s)
  | ownStateReqCompletes => cases h; exact .ite (hcompleted.then (by simp)) (.refl s)
  | ownPresenceCompletes => cases h; exact .ite hcompleted (.refl s)
  | frameDiscarded fault => cases h; exact .ite s.discardFrame_onlyRises (.refl s)
  | claimAccepted | closeAccepted | epochAccepted =>
    cases h
    exact .ite ((s.accept_onlyRises _ _ _).trans (State.ownSequenced_onlyRises _ _ _)) (.refl s)
  | clearAccepted h' tick epoch =>
    cases h
    exact .ite ((s.accept_onlyRises _ _ _).trans (State.ownClear_onlyRises _ _ _)) (.refl s)
  | stateAccepted h' body =>
    cases h
    exact .ite (.ite ((s.accept_onlyRises _ _ _).trans (State.ownState_onlyRises _ _ _)) s.discardFrame_onlyRises)
      (.refl s)
  | stateReqAccepted h' fingerprint attempt =>
    cases h
    exact .ite ((s.accept_onlyRises h' (some fingerprint) false).then (by simp)) (.refl s)
  | presenceAccepted h' fingerprint => cases h; exact .ite (s.accept_onlyRises _ _ _) (.refl s)
  | claimExpiry => cases h; exact State.unlessReset_onlyRises s.testExpiry_onlyRises
  | closeDueReached | presenceDue | absence => cases h; exact State.unlessReset_onlyRises (.of_same rfl)
  | requestDeadline => cases h; exact State.unlessReset_onlyRises s.testRequest_onlyRises
  | chunkDeadline => cases h; exact State.unlessReset_onlyRises s.testChunk_onlyRises
  | retryTick | answerDelayEnd | listeningEnd => cases h; exact State.unlessReset_onlyRises (.of_same (by simp))
  | lineIdle | startBitTaken | breakEnd => cases h; exact .ite (.of_same rfl) (.refl s)
  | _ => cases hc

/-- No board write but the commit of a TAKE_ORDER empties the Order Queue (R154, R155). -/
theorem State.Boarded.orders_ne_nil {c : Instr} {s t : State} (h : s.Boarded c t) (hc : Instr.emptiesOrders c = false)
    (ho : s.orders ≠ []) : t.orders ≠ [] := by
  obtain ⟨m, hw, hport⟩ := h
  rw [hport]
  cases hw with
  | marked => exact List.cons_ne_nil _ _
  | taken => cases hc
  | unmarked => exact mt List.map_eq_nil_iff.mp ho
  | _ => exact ho

/-- A board command sets no flag, and only the commit of an ACK_FLAGS clears one (R173). -/
theorem State.Boarded.hasFlag_of_hasFlag {c : Instr} {f : Flag} {s t : State} (h : s.Boarded c t)
    (ht : t.hasFlag f = true) : s.hasFlag f = true := by
  obtain ⟨m, hw, hport⟩ := h
  rw [hport] at ht
  cases hw with
  | cleared mask copy => exact State.hasFlag_of_clearFlags ht
  | _ => exact ht

theorem State.Boarded.counter {c : Instr} {s t : State} (h : s.Boarded c t) (k : Counter) :
    t.counter k = s.counter k := by
  have hparts := h.busParts
  simp only [State.busParts, Prod.mk.injEq] at hparts
  obtain ⟨-, -, -, -, -, -, -, -, -, -, hcounters, -⟩ := hparts
  simp only [State.counter, hcounters]

/-- A commit of a restart sets no flag (R147). -/
theorem execRestartStationCommit_hasFlag {f : Flag} {s t : State} (h : exec .restartStationCommit s = .next t)
    (ht : t.hasFlag f = true) : s.hasFlag f = true := by
  cases h
  revert ht
  split
  · split <;> simp [State.hasFlag, State.restart]
  · exact id

/-- A flag is newly set by a pin, line, frame or tick command alone, and not in reset (R135, R172). -/
theorem exec_newFlag {c : Instr} {f : Flag} {s t : State} (h : exec c s = .next t) (hs : s.hasFlag f = false)
    (ht : t.hasFlag f = true) : c.boardSide = false ∧ c ≠ .pinReset ∧ (∀ a r, c ≠ .resetRelease a r)
      ∧ s.inReset = false := by
  have hnot : ¬s.hasFlag f = true := by simp [hs]
  have hpin : c ≠ .pinReset := by
    rintro rfl
    cases h
    simp [State.hasFlag, State.pinReset, State.reset] at ht
  have hrelease : ∀ a r, c ≠ .resetRelease a r := by
    rintro a r rfl
    cases h
    refine hnot ?_
    split at ht <;> exact ht
  refine ⟨Bool.eq_false_iff.mpr fun hside => hnot ?_, hpin, hrelease, Bool.eq_false_iff.mpr fun hr => hnot ?_⟩
  · by_cases hrestart : c = .restartStationCommit
    · exact execRestartStationCommit_hasFlag (hrestart ▸ h) ht
    · exact (exec_boarded c hside hrestart h).hasFlag_of_hasFlag ht
  · rw [exec_of_inReset hr c hpin hrelease] at h
    cases h
    exact ht

/-- A station out of reset goes into it by a pin reset alone (R135). -/
theorem exec_inReset {c : Instr} {s t : State} (h : exec c s = .next t) (hpin : c ≠ .pinReset)
    (hr : s.inReset = false) : t.inReset = false := by
  by_cases hrelease : ∃ a r, c = .resetRelease a r
  · obtain ⟨a, r, rfl⟩ := hrelease
    cases h
    split
    · rfl
    · exact hr
  by_cases hrestart : c = .restartStationCommit
  · subst hrestart
    cases h
    split
    · split <;> simpa using hr
    · exact hr
  cases hside : c.boardSide with
  | true => exact (boardSideLeavesTheBusSide c s t hside h hrestart).1.trans hr
  | false =>
    have hheld := busSideLeavesTheBoardSide c s t hside h hpin fun a r hc => hrelease ⟨a, r, hc⟩
    exact hheld.1.trans hr

/-- Settles O7: the bus side only rises, and the board side touches flags and orders by its writes alone. -/
theorem countersAndFlagsOnlyRise : Obligations.CountersAndFlagsOnlyRise := by
  refine ⟨fun c s t k h hpin hrestart => ?_, fun c s t f h hpin hrestart hack hs => ?_,
    fun c s t f h hs ht => ?_, fun s => ⟨s.alertLine_iff, ?_⟩,
    fun c s t h hpin hrestart htake hown hclear hs => ?_⟩
  · cases hside : c.boardSide with
    | true => rw [(exec_boarded c hside hrestart h).counter]
    | false => exact (exec_busSide_onlyRises c hside hpin h).counters k
  · cases hside : c.boardSide with
    | true => rw [State.hasFlag, (exec_boarded c hside hrestart h).flags hack]; exact hs
    | false => exact (exec_busSide_onlyRises c hside hpin h).flags f hs
  · obtain ⟨hside, hpin, hrelease, hr⟩ := exec_newFlag h hs ht
    obtain ⟨hattention, hfresh⟩ := (exec_busSide_onlyRises c hside hpin h).newly f hs ht
    refine ⟨hattention, t.alertLine_iff.mpr ⟨exec_inReset h hpin hr, f, ht⟩, ?_⟩
    rw [(exec_boardKept c hside h hpin hrelease).port, hfresh]
  · exact s.orderLine_iff.trans (and_congr_right fun _ =>
      ⟨List.exists_mem_of_ne_nil _, fun ⟨_, ho⟩ => List.ne_nil_of_mem ho⟩)
  · obtain ⟨hr, horders⟩ := s.orderLine_iff.mp hs
    have hempties := Instr.emptiesOrders_eq_false htake hown hclear
    refine t.orderLine_iff.mpr ⟨exec_inReset h hpin hr, ?_⟩
    cases hside : c.boardSide with
    | true => exact (exec_boarded c hside hrestart h).orders_ne_nil hempties horders
    | false => exact (exec_busSide_onlyRises c hside hpin h).orders hempties horders

end Sys2Proof.Machine

/-! The Order Queue: what an offer makes of it, and its laws under every command (O6, O42). -/

namespace Sys2Proof.Machine

/-! ### Searches for a number (R152) -/

theorem ordersHave_iff (n : Half) (q : List QueuedOrder) :
    ordersHave n q = true ↔ ∃ x ∈ q, x.order.number = n := by simp [ordersHave]

theorem ordersHave_eq_false_iff (n : Half) (q : List QueuedOrder) :
    ordersHave n q = false ↔ ∀ x ∈ q, x.order.number ≠ n := by simp [ordersHave]

theorem mem_ordersWithout {n : Half} {q : List QueuedOrder} {x : QueuedOrder} :
    x ∈ ordersWithout n q ↔ x ∈ q ∧ x.order.number ≠ n := by simp [ordersWithout]

theorem ordersWithout_sublist (n : Half) (q : List QueuedOrder) : (ordersWithout n q).Sublist q :=
  List.filter_sublist

theorem ordersWithout_of_absent {n : Half} {q : List QueuedOrder} (h : ∀ x ∈ q, x.order.number ≠ n) :
    ordersWithout n q = q := List.filter_eq_self.mpr fun x hx => by simpa using h x hx

/-- An order with the number is one order the fewer without it. -/
theorem length_ordersWithout_lt {n : Half} {q : List QueuedOrder} (h : ordersHave n q = true) :
    (ordersWithout n q).length < q.length := by
  obtain ⟨x, hx, hn⟩ := (ordersHave_iff n q).mp h
  exact List.length_filter_lt_length_iff_exists.mpr ⟨x, hx, by simp [hn]⟩

theorem ordersWithout_of_found {n : Half} {a b : List QueuedOrder} {q : QueuedOrder} (hq : q.order.number = n)
    (h : ∀ x ∈ a ++ b, x.order.number ≠ n) : ordersWithout n (a ++ q :: b) = a ++ b := by
  have hdropped : ordersWithout n (a ++ q :: b) = ordersWithout n (a ++ b) := by simp [ordersWithout, hq]
  rw [hdropped, ordersWithout_of_absent h]

/-! ### The answer to an offer (R151) -/

theorem State.orderAnswer_of_disarmed {n : Half} {s : State} (h : s.armed = false) :
    s.orderAnswer n = .disarmed := by simp [State.orderAnswer, h]

theorem State.orderAnswer_of_found {n : Half} {s : State} (h : s.armed = true)
    (hfound : ordersHave n s.orders = true) : s.orderAnswer n = .superseded := by
  simp [State.orderAnswer, h, hfound]

theorem State.orderAnswer_of_full {n : Half} {s : State} (h : s.armed = true)
    (habsent : ordersHave n s.orders = false) (hfull : 8 ≤ s.orders.length) : s.orderAnswer n = .full := by
  simp [State.orderAnswer, h, habsent, Config.maxOrders, hfull]

theorem State.orderAnswer_of_room {n : Half} {s : State} (h : s.armed = true)
    (habsent : ordersHave n s.orders = false) (hroom : s.orders.length < 8) : s.orderAnswer n = .room := by
  simp [State.orderAnswer, h, habsent, Config.maxOrders, not_le.mpr hroom]

theorem State.ordersHave_of_superseded {n : Half} {s : State} (h : s.orderAnswer n = .superseded) :
    ordersHave n s.orders = true := by
  unfold State.orderAnswer at h
  split at h
  · cases h
  split at h
  next hfound => exact hfound
  · split at h <;> cases h

theorem State.absent_of_room {n : Half} {s : State} (h : s.orderAnswer n = .room) :
    ordersHave n s.orders = false ∧ s.orders.length < 8 := by
  unfold State.orderAnswer at h
  split at h
  · cases h
  split at h
  · cases h
  next hnone =>
    split at h
    · cases h
    next hroom => exact ⟨Bool.eq_false_iff.mpr hnone, not_le.mp hroom⟩

/-- Settles O42: each case fixes the answer, and the answer the queue. -/
theorem offersAreAnswered : Obligations.OffersAreAnswered := by
  intro o s
  refine ⟨fun harm => ?_, fun a q b harm hsplit hq hothers => ?_, fun harm hothers hfull => ?_,
    fun harm hothers hroom => ?_⟩
  · rw [State.offerOrder, State.orderAnswer_of_disarmed harm]
    exact ⟨rfl, rfl⟩
  · have hfound : ordersHave o.number s.orders = true :=
      (ordersHave_iff _ _).mpr ⟨q, by simp [hsplit], hq⟩
    have hwithout : ordersWithout o.number s.orders = a ++ b := by
      rw [hsplit, ordersWithout_of_found hq hothers]
    rw [State.offerOrder, State.orderAnswer_of_found harm hfound, hwithout]
    exact ⟨rfl, rfl⟩
  · have habsent := (ordersHave_eq_false_iff _ _).mpr hothers
    rw [State.offerOrder, State.orderAnswer_of_full harm habsent hfull]
    exact ⟨rfl, rfl⟩
  · have habsent := (ordersHave_eq_false_iff _ _).mpr hothers
    rw [State.offerOrder, State.orderAnswer_of_room harm habsent hroom]
    exact ⟨rfl, rfl⟩

/-! ### The laws of a queue (R150, R155) -/

/-- The laws of the Order Queue, of the list of orders by itself. -/
structure OrdersLawful (q : List QueuedOrder) : Prop where
  length : q.length ≤ Config.maxOrders
  numbers : (q.map (fun o => o.order.number)).Nodup
  unmarked : ∀ o ∈ q.tail, o.pending = false

theorem State.ordersLaw_iff (s : State) : s.OrdersLaw ↔ OrdersLawful s.orders :=
  ⟨fun ⟨hlength, hnumbers, hunmarked⟩ => ⟨hlength, hnumbers, hunmarked⟩,
    fun ⟨hlength, hnumbers, hunmarked⟩ => ⟨hlength, hnumbers, hunmarked⟩⟩

theorem OrdersLawful.nil : OrdersLawful [] := ⟨Nat.zero_le _, List.nodup_nil, nofun⟩

theorem OrdersLawful.sublist {p q : List QueuedOrder} (h : OrdersLawful q) (hsub : p.Sublist q) : OrdersLawful p :=
  ⟨hsub.length_le.trans h.length, h.numbers.sublist (hsub.map _), fun o ho => h.unmarked o (hsub.tail.subset ho)⟩

/-- A new order enters at the end, unmarked (R151, R155). -/
theorem OrdersLawful.snoc {q : List QueuedOrder} {o : Order} (h : OrdersLawful q)
    (habsent : ∀ x ∈ q, x.order.number ≠ o.number) (hroom : q.length < Config.maxOrders) :
    OrdersLawful (q ++ [QueuedOrder.mk o false]) := by
  refine ⟨by simpa using hroom, ?_, fun x hx => ?_⟩
  · rw [List.map_append, List.nodup_append]
    refine ⟨h.numbers, List.nodup_singleton _, fun n hn m hm => ?_⟩
    obtain ⟨x, hx, rfl⟩ := List.mem_map.mp hn
    obtain rfl : m = o.number := by simpa using hm
    exact habsent x hx
  · cases q with
    | nil => cases hx
    | cons y ys =>
      rcases List.mem_append.mp hx with hold | hnew
      · exact h.unmarked x hold
      · rw [List.mem_singleton.mp hnew]

/-- The pending marks are dropped (R155). -/
theorem OrdersLawful.unmark {q : List QueuedOrder} (h : OrdersLawful q) :
    OrdersLawful (q.map (fun o => { o with pending := false })) := by
  refine ⟨by simpa using h.length, by simpa [Function.comp_def] using h.numbers, fun o ho => ?_⟩
  obtain ⟨x, -, rfl⟩ := List.mem_map.mp (List.mem_of_mem_tail ho)
  rfl

/-- The head takes the pending mark (R154). -/
theorem OrdersLawful.mark {o : QueuedOrder} {rest : List QueuedOrder} (h : OrdersLawful (o :: rest)) :
    OrdersLawful ({ o with pending := true } :: rest) := ⟨h.length, h.numbers, h.unmarked⟩

theorem commitOrders_sublist (q : List QueuedOrder) : (commitOrders q).Sublist q := by
  cases q with
  | nil => exact .refl []
  | cons o rest =>
    rw [commitOrders]
    split
    · exact List.sublist_cons_self o rest
    · exact .refl _

/-! ### Operations that keep the laws -/

/-- The operation that takes the station `s` to `t` keeps the laws of the Order Queue. -/
def State.OrdersKept (s t : State) : Prop := OrdersLawful s.orders → OrdersLawful t.orders

theorem State.OrdersKept.refl (s : State) : s.OrdersKept s := id

theorem State.OrdersKept.trans {s t u : State} (h : s.OrdersKept t) (g : t.OrdersKept u) : s.OrdersKept u := g ∘ h

theorem State.OrdersKept.of_same {s t : State} (h : t.orders = s.orders) : s.OrdersKept t :=
  fun hs => h.symm ▸ hs

theorem State.OrdersKept.of_empty {s t : State} (h : t.orders = []) : s.OrdersKept t :=
  fun _ => h.symm ▸ OrdersLawful.nil

/-- An operation followed by one that leaves the queue alone. -/
theorem State.OrdersKept.then {s t u : State} (h : s.OrdersKept t) (hsame : u.orders = t.orders) :
    s.OrdersKept u := h.trans (.of_same hsame)

/-- An operation that comes after one that leaves the queue alone. -/
theorem State.OrdersKept.after {s t u : State} (g : t.OrdersKept u) (hsame : t.orders = s.orders) :
    s.OrdersKept u := (State.OrdersKept.of_same hsame).trans g

theorem State.OrdersKept.withdraw {s t : State} (h : s.OrdersKept t) (p : Body → Bool) :
    s.OrdersKept (t.withdraw p) := h.then rfl

theorem State.OrdersKept.ite {c : Prop} [Decidable c] {s t u : State} (ht : s.OrdersKept t)
    (hu : s.OrdersKept u) : s.OrdersKept (if c then t else u) := by
  split
  · exact ht
  · exact hu

theorem State.unlessReset_ordersKept {s : State} {f : State → State} (hf : (f s).orders = s.orders) :
    s.OrdersKept (s.unlessReset f) := .ite (.refl s) (.of_same hf)

/-! ### Ordered frames (R34, R40, R151, R152) -/

/-- An offer takes a number's place at the end: the older order of the number has left, or there is room. -/
theorem State.offerOrder_ordersKept (o : Order) (s : State) : s.OrdersKept (s.offerOrder o) := by
  unfold State.offerOrder
  split
  next => exact .refl s
  next hanswer =>
    intro hs
    have hfewer := length_ordersWithout_lt (State.ordersHave_of_superseded hanswer)
    exact (hs.sublist (ordersWithout_sublist o.number s.orders)).snoc (fun x hx => (mem_ordersWithout.mp hx).2)
      (hfewer.trans_le hs.length)
  next => exact .of_same rfl
  next hanswer =>
    obtain ⟨habsent, hroom⟩ := State.absent_of_room hanswer
    exact fun hs => hs.snoc ((ordersHave_eq_false_iff _ _).mp habsent) hroom

theorem State.applyClose_ordersKept (a : Addr) (n : Half) (s : State) : s.OrdersKept (s.applyClose a n) := by
  unfold State.applyClose
  split
  · exact .of_same rfl
  · dsimp only
    refine State.OrdersKept.withdraw ?_ _
    split
    · exact .after (State.offerOrder_ordersKept _ _) rfl
    · exact .of_same rfl

theorem State.applyFrame_ordersKept (a : Addr) (body : Sequenced) (s : State) :
    s.OrdersKept (s.applyFrame a body) := by
  cases body with
  | claim stamp epoch => exact .of_same (by simp [State.applyFrame])
  | close n => exact .after (State.applyClose_ordersKept a n _) rfl
  | epoch => exact .of_same (by simp [State.applyFrame])

theorem State.applyHeld_ordersKept (fs : List Held) (s : State) : s.OrdersKept (s.applyHeld fs) := by
  induction fs generalizing s with
  | nil => exact .refl s
  | cons f fs ih => exact (s.applyFrame_ordersKept f.sender f.body).trans (ih _)

theorem State.applyClear_ordersKept (s : State) : s.OrdersKept s.applyClear := .of_empty s.applyClear_fields.1

/-! ### The requester (R41, R112 to R121) -/

theorem State.install_ordersKept (h : SnapHeader) (records : List EventRecord) (s : State) :
    s.OrdersKept (s.install h records) := by
  unfold State.install
  split
  next => exact .of_same (by simp)
  next marked _ =>
    have happlied : s.OrdersKept (State.applyHeld marked { s with table := installedTable h records }) :=
      .after (State.applyHeld_ordersKept _ _) rfl
    exact happlied.then (by simp)

theorem State.examineHeader_ordersKept (a : Addr) (n : Nat) (body : StateBody) (s : State) :
    s.OrdersKept (s.examineHeader a n body) := by
  unfold State.examineHeader
  split
  · exact .of_same (by simp)
  split
  · exact .of_same (by simp)
  · exact .ite (.ite (.after (State.install_ordersKept _ _ _) rfl) (.of_same rfl)) (.of_same (by simp))

theorem State.takeChunk_ordersKept (c : Receiving) (n : Nat) (body : StateBody) (s : State) :
    s.OrdersKept (s.takeChunk c n body) := by
  have hfails : ∀ k, s.OrdersKept (s.fail k) := fun k => .of_same (by simp)
  unfold State.takeChunk
  refine .ite (hfails _) (.ite (hfails _) ?_)
  split
  · exact hfails _
  · exact .ite (hfails _) (.ite (s.install_ordersKept _ _) (.of_same rfl))

theorem State.requesterState_ordersKept (a : Addr) (n : Nat) (body : StateBody) (s : State) :
    s.OrdersKept (s.requesterState a n body) := by
  unfold State.requesterState
  refine .ite (.refl s) ?_
  split
  · exact .ite (s.examineHeader_ordersKept a n body) (.refl s)
  · exact .ite (s.takeChunk_ordersKept _ n body) (.refl s)
  · exact .refl s

theorem State.clearOutOfStep_ordersKept (tick : Tick) (epoch : Byte) (s : State) :
    s.OrdersKept (s.clearOutOfStep tick epoch) := by
  have hwithdrawn : s.OrdersKept ({ s with requester := Requester.idle }.withdraw (Body.isKind .stateReq)) :=
    .of_same rfl
  exact (hwithdrawn.trans (State.applyClear_ordersKept _)).then rfl

/-! ### Acceptances and completions (R61, R66) -/

theorem State.ownSequenced_ordersKept (h : Header) (body : Sequenced) (s : State) :
    s.OrdersKept (s.ownSequenced h body) := by
  unfold State.ownSequenced
  split
  · exact s.applyFrame_ordersKept _ _
  · exact s.applyFrame_ordersKept _ _
  · exact .of_same (by simp)
  all_goals exact .refl s

theorem State.ownClear_ordersKept (tick : Tick) (epoch : Byte) (s : State) :
    s.OrdersKept (s.ownClear tick epoch) := by
  unfold State.ownClear
  split
  · exact s.applyClear_ordersKept
  · exact s.applyClear_ordersKept
  · exact s.clearOutOfStep_ordersKept _ _
  all_goals exact .refl s

theorem State.ownState_ordersKept (h : Header) (body : List Byte) (s : State) :
    s.OrdersKept (s.ownState h body) := by
  unfold State.ownState
  split
  · exact .refl s
  split
  · exact s.requesterState_ordersKept _ _ _
  · exact .of_same (by simp)
  all_goals exact .refl s

/-- A frame accepted by the Step Monitor, `f` being its owner's part. -/
theorem State.accepted_ordersKept (h : Header) (carried : Option Half) (epoch : Bool) {f : State → State}
    (hf : ∀ x : State, x.OrdersKept (f x)) (s : State) : s.OrdersKept (f (s.accept h carried epoch)) :=
  .after (hf _) (by simp)

/-- The completion of an own ordered frame, `f` being what comes before its application. -/
theorem State.completeSequenced_ordersKept (k : Kind) {f : State → State} (hf : ∀ x : State, (f x).orders = x.orders)
    (s : State) : s.OrdersKept (s.completeSequenced k f) := by
  have hdone : s.OrdersKept (f s.completed) := .of_same ((hf _).trans rfl)
  unfold State.completeSequenced
  refine .ite ?_ (.refl s)
  split
  · exact .ite (hdone.trans (State.applyFrame_ordersKept _ _ _)) hdone
  · exact .refl s

/-! ### Every command -/

theorem exec_busSide_ordersKept (c : Instr) {s t : State} (hc : c.boardSide = false) (h : exec c s = .next t) :
    s.OrdersKept t := by
  have hdone : s.OrdersKept s.completed := .of_same rfl
  cases c with
  | pinReset => cases h; exact .of_empty rfl
  | resetRelease addr rate => cases h; exact .ite (.of_same rfl) (.refl s)
  | refArrival => cases h; exact State.unlessReset_ordersKept (by split <;> simp)
  | trigEdge => cases h; exact State.unlessReset_ordersKept (by simp)
  | transmissionStart recessive => cases h; exact .of_same (by simp)
  | arbitrationLoss | bitError =>
    cases h
    refine .ite ?_ (.refl s)
    split
    · exact .of_same (by simp)
    · exact .refl s
  | ownClaimCompletes => cases h; exact s.completeSequenced_ordersKept _ (State.rise_orders _ _)
  | ownCloseCompletes => cases h; exact s.completeSequenced_ordersKept _ fun _ => rfl
  | ownEpochCompletes => cases h; exact s.completeSequenced_ordersKept _ fun _ => by simp
  | ownClearCompletes =>
    cases h
    exact .ite (.ite (hdone.trans (State.applyClear_ordersKept _)) hdone) (.refl s)
  | ownStateCompletes | ownStateReqCompletes | ownPresenceCompletes =>
    cases h
    exact .ite (hdone.then (by simp)) (.refl s)
  | claimAccepted | closeAccepted | epochAccepted =>
    cases h
    exact .ite (s.accepted_ordersKept _ _ _ (State.ownSequenced_ordersKept _ _)) (.refl s)
  | clearAccepted h' tick epoch =>
    cases h
    exact .ite (s.accepted_ordersKept _ _ _ (State.ownClear_ordersKept tick epoch)) (.refl s)
  | stateAccepted h' body =>
    cases h
    exact .ite (.ite (s.accepted_ordersKept _ _ _ (State.ownState_ordersKept h' body)) (.of_same rfl)) (.refl s)
  | stateReqAccepted | presenceAccepted => cases h; exact .ite (.of_same (by simp)) (.refl s)
  | deferredOfferAdmitted | closeDueReached | claimExpiry | presenceDue | absence | requestDeadline | chunkDeadline
  | retryTick | answerDelayEnd | listeningEnd =>
    cases h
    exact State.unlessReset_ordersKept (by simp)
  | frameDiscarded | lineIdle | startBitTaken | breakEnd => cases h; exact .ite (.of_same (by simp)) (.refl s)
  | _ => cases hc

/-- The three writes a board command makes to the queue: the head marked, the head taken, the marks dropped. -/
theorem State.Boarded.ordersKept {c : Instr} {s t : State} (h : s.Boarded c t) : s.OrdersKept t := by
  obtain ⟨m, hw, hport⟩ := h
  refine State.OrdersKept.then ?_ (congrArg State.orders hport)
  cases hw with
  | marked o rest ho => exact fun hs => OrdersLawful.mark (ho ▸ hs)
  | taken => exact fun hs => hs.sublist (commitOrders_sublist _)
  | unmarked => exact fun hs => hs.unmark
  | _ => exact .refl s

theorem exec_ordersKept (c : Instr) {s t : State} (h : exec c s = .next t) : s.OrdersKept t := by
  by_cases hrestart : c = .restartStationCommit
  · subst hrestart
    cases h
    exact .ite (.ite (.of_same (by simp)) (.of_empty (by simp [State.restart]))) (.refl s)
  cases hside : c.boardSide with
  | true => exact (exec_boarded c hside hrestart h).ordersKept
  | false => exact exec_busSide_ordersKept c hside h

/-- Settles O6: the command at the front keeps the laws, and so does idling. -/
theorem everyStepKeepsTheOrdersLaw : Obligations.EveryStepKeepsTheOrdersLaw := by
  intro s t hs h
  unfold step at h
  split at h
  next => cases h; exact hs
  next c rest _ => exact t.ordersLaw_iff.mpr (exec_ordersKept c h (s.ordersLaw_iff.mp hs))

end Sys2Proof.Machine

/-! Transactions of the board port, and the delivery of an order (O23, O26). -/

namespace Sys2Proof.Machine

/-! ### Bytes that are shifted in (R158) -/

theorem partialCommand_cons_iff (code : Byte) (args : List Byte) :
    partialCommand (code :: args) = true ↔ (code = 0x11#8 ∧ args.length < 7)
      ∨ ((code = 0x42#8 ∨ code = 0x43#8 ∨ code = 0x52#8 ∨ code = 0x61#8) ∧ args.length < 2) := by
  simp only [partialCommand, argumentBytes]
  split
  next hset => simp [hset]
  next hset =>
    split
    next hpair => simp [hset, hpair]
    next hnone => simp [hset, hnone]

theorem State.takesCommand_iff {c : Instr} {bytes : List Byte} {s : State} (hr : s.inReset = false)
    (hb : Decode.commandBytes c = some bytes) : s.takesCommand c = true ↔
      (s.port.txn = .command ∨ s.port.txn = .arguments) ∧ s.port.shifted <+: bytes := by
  simp [State.takesCommand, hr, hb]

/-- A fall of CSn in IDLE (R158). -/
theorem State.openTransaction_of_idle {s : State} (bytes : List Byte) (hr : s.inReset = false)
    (hcsn : s.csnHigh = true) (hidle : s.port.txn = .idle) : s.openTransaction bytes =
      State.shiftIn bytes { s with csnHigh := false, port := { Port.reset with txn := .command } } := by
  simp [State.openTransaction, hr, hcsn, hidle]

/-- A fall of a line that is low already (log 4). -/
theorem State.openTransaction_of_low {s : State} (bytes : List Byte) (hcsn : s.csnHigh = false) :
    s.openTransaction bytes = s := by
  simp only [State.openTransaction, hcsn, Bool.and_false, Bool.false_and, Bool.false_eq_true, if_false]
  rw [← hcsn]

/-! ### Ends of a response -/

/-- The status byte clears attention when it carried it and no flag is newly set (R163). -/
theorem State.endStatusByte_eq (s : State) : s.endStatusByte = { s with
    attention := if s.port.carried = true ∧ s.port.fresh = false then false else s.attention,
    port := { s.port with statusOut := true } } := by
  unfold State.endStatusByte
  cases s.port.carried <;> cases s.port.fresh <;> simp

theorem State.endsIn_iff (c : Commit) (s : State) : s.endsIn c = true ↔
    s.inReset = false ∧ s.port.txn = .response ∧ s.port.commit = c := by
  simp [State.endsIn, and_assoc]

/-- With the status byte out and no commit left, the transaction trails and no more (R158). -/
theorem State.trail_of_statusOut {s : State} (hout : s.port.statusOut = true) (hcommit : s.port.commit = .nothing) :
    s.trail = { s with port := { s.port with txn := .trailing } } := by
  simp only [State.trail, State.statusGone, hout, if_true, ← hcommit]

/-- Settles O23: the fall of CSn by the state it finds, the bytes it brings, its rise, and the two ends. -/
theorem transactionsRunToTheirEnd : Obligations.TransactionsRunToTheirEnd := by
  refine ⟨fun s hr => ⟨fun hcsn hidle => ?_, fun code args hcsn hidle hpartial => ?_,
    fun c bytes hb => State.takesCommand_iff hr hb, fun shifted hcsn => ?_, fun hcsn => ?_⟩,
    fun s hr htxn => ⟨fun hout => ?_, fun hout hcommit => ?_⟩⟩
  · simp only [exec, execTransactionOpen, State.openTransaction_of_idle [] hr hcsn hidle]
    rfl
  · have hbytes := (partialCommand_cons_iff code args).mpr hpartial
    simp only [exec, execTransactionOpen, State.openTransaction_of_idle _ hr hcsn hidle, State.shiftIn, hbytes, if_true]
  · simp only [exec, execTransactionOpen, State.openTransaction_of_low shifted hcsn]
  · simp [exec, execTransactionEnd, State.endTransaction, hcsn, hr]
  · simp [exec, execStatusByteEnd, hr, htxn, hout, State.endStatusByte_eq]
  · have hends := (s.endsIn_iff .nothing).mpr ⟨hr, htxn, hcommit⟩
    simp only [exec, execResponseEnd, hends, if_true, State.trail_of_statusOut hout hcommit]

/-! ### TAKE_ORDER (R154, R155) -/

theorem State.takeOrder_of_nil {s : State} (h : s.orders = []) :
    s.takeOrder = s.respond .noOrder [0, 0, 0, 0, 0, 0, 0, 0] .nothing := by
  simp only [State.takeOrder, h]
  rfl

theorem State.takeOrder_of_cons {s : State} {o : QueuedOrder} {rest : List QueuedOrder} (h : s.orders = o :: rest) :
    s.takeOrder = State.respond .ok o.order.bytes .takeOrder
      { s with orders := { o with pending := true } :: rest } := by
  simp only [State.takeOrder, h]

theorem exec_takeOrder {s : State} (h : s.takesCommand .takeOrder = true) :
    exec .takeOrder s = .next s.takeOrder := by
  simp only [exec, execTakeOrder, State.taken_of_takesCommand _ _ _ h]

theorem exec_takeOrderCommit {s : State} (h : s.endsIn .takeOrder = true) :
    exec .takeOrderCommit s = .next (State.trail { s with orders := commitOrders s.orders }) := by
  simp only [exec, execTakeOrderCommit, h, if_true]

theorem commitOrders_of_marked {o : QueuedOrder} (rest : List QueuedOrder) (h : o.pending = true) :
    commitOrders (o :: rest) = rest := if_pos h

/-- A mark that a flush or a new order of the number took from the queue leaves the commit nothing to remove. -/
theorem commitOrders_of_unmarked {q : List QueuedOrder} (h : ∀ o ∈ q, o.pending = false) : commitOrders q = q := by
  cases q with
  | nil => rfl
  | cons o rest => exact if_neg (by simp [h o])

/-- Settles O26: TAKE_ORDER on an empty queue and on a head, and its commit with the mark and without. -/
theorem takeOrderDeliversTheHead : Obligations.TakeOrderDeliversTheHead := by
  intro s
  refine ⟨fun htakes hnil => ?_, fun o rest htakes hcons => ?_, fun o rest hends hcons hmarked => ?_,
    fun hends hnone => ?_⟩
  · rw [exec_takeOrder htakes, State.takeOrder_of_nil hnil]
  · rw [exec_takeOrder htakes, State.takeOrder_of_cons hcons]
    rfl
  · rw [exec_takeOrderCommit hends, hcons, commitOrders_of_marked rest hmarked]
  · rw [exec_takeOrderCommit hends, commitOrders_of_unmarked hnone]

end Sys2Proof.Machine

/-! The board port's bytes: commands shifted in, and what opens a response (O17, O22). -/

namespace Sys2Proof.Machine

/-! ### Commands read back from their bytes (R159, R178) -/

/-- A code that names no command is read as UNKNOWN_COMMAND, whatever follows it. -/
theorem decodeCommand_unknown {code : Byte} (h : code ∉ commandCodes) (args : List Byte) :
    Decode.command (code :: args) = some (.unknownCommand code) := by
  simp only [commandCodes, List.mem_cons, List.not_mem_nil, or_false, not_or] at h
  simp only [Decode.command, h, if_false]

/-- A code that names no command carries no argument bytes. -/
theorem argumentBytes_unknown {code : Byte} (h : code ∉ commandCodes) : argumentBytes code = 0 := by
  simp only [commandCodes, List.mem_cons, List.not_mem_nil, or_false, not_or] at h
  simp only [argumentBytes, h, or_false, if_false]

/-- While an argument byte is missing, no command is read. -/
theorem decodeCommand_of_partial {bytes : List Byte} (h : partialCommand bytes = true) :
    Decode.command bytes = none := by
  cases bytes with
  | nil => rfl
  | cons code args =>
    rcases (partialCommand_cons_iff code args).mp h with ⟨rfl, hlen⟩ | ⟨rfl | rfl | rfl | rfl, hlen⟩
    all_goals
      simp only [Decode.command, reduceIte, BitVec.reduceEq]
      split
      · simp at hlen
      · rfl

theorem decodeCommand_commandBytes {c : Instr} {bytes : List Byte} (hwf : c.wf = true)
    (h : Decode.commandBytes c = some bytes) : Decode.command bytes = some c := by
  cases c with
  | unknownCommand code =>
    cases h
    exact decodeCommand_unknown (by simpa [Instr.wf] using hwf) []
  | setConfig w g q h' p v =>
    cases h
    exact congrArg (fun x => some (Instr.setConfig w g q h' x v)) (half_be16 p)
  | stageEvent number =>
    cases h
    exact congrArg (fun x => some (Instr.stageEvent x)) (half_be16 number)
  | ackFlags mask =>
    cases h
    exact congrArg (fun x => some (Instr.ackFlags x)) (half_be16 mask)
  | _ => cases h <;> rfl

/-- A command's bytes are its code and as many argument bytes as go with it. -/
theorem commandBytes_eq_cons {c : Instr} {bytes : List Byte} (hwf : c.wf = true)
    (h : Decode.commandBytes c = some bytes) :
    ∃ code args, bytes = code :: args ∧ args.length = argumentBytes code := by
  cases c with
  | unknownCommand code =>
    cases h
    exact ⟨code, [], rfl, (argumentBytes_unknown (by simpa [Instr.wf] using hwf)).symm⟩
  | _ => cases h <;> exact ⟨_, _, rfl, rfl⟩

/-- Settles O17: bytes cut short are none at all or lack an argument byte of their code. -/
theorem boardCommandBytesAreReadBack : Obligations.BoardCommandBytesAreReadBack := by
  intro c bytes hwf h
  refine ⟨decodeCommand_commandBytes hwf h, fun n hn => ?_⟩
  obtain ⟨code, args, rfl, hargs⟩ := commandBytes_eq_cons hwf h
  cases n with
  | zero => rfl
  | succ n =>
    refine decodeCommand_of_partial (decide_eq_true ?_)
    rw [List.length_cons] at hn
    rw [List.length_take]
    omega

/-! ### The status byte (R161, R178) -/

/-- Five single bits and a field of three, from bit 7 down. -/
theorem statusLayout (a b c d e : Bool) (code : BitVec 3) :
    let byte :=
      BitVec.ofBool a ++ BitVec.ofBool b ++ BitVec.ofBool c ++ BitVec.ofBool d ++ BitVec.ofBool e ++ code
    byte.getLsbD 7 = a ∧ byte.getLsbD 6 = b ∧ byte.getLsbD 5 = c ∧ byte.getLsbD 4 = d ∧ byte.getLsbD 3 = e
      ∧ byte.extractLsb' 0 3 = code := by
  refine ⟨?_, ?_, ?_, ?_, ?_,
    (BitVec.extractLsb'_append_eq_of_add_le (by decide)).trans BitVec.extractLsb'_eq_self⟩
  all_goals
    simp only [BitVec.getLsbD_append, Nat.reduceLT, Nat.reduceSub, reduceIte, BitVec.getLsbD_ofBool, decide_true,
      Bool.true_and]

/-- Settles O22: the byte loaded is the status byte, read field by field. -/
theorem responseOpensWithTheStatusByte : Obligations.ResponseOpensWithTheStatusByte := by
  intro r data c s
  obtain ⟨houtbox, hstage, hattention, horders, harmed, hstep⟩ := statusLayout (!s.tx.outbox.isEmpty)
    s.stage.isSome s.attention (!s.orders.isEmpty) s.armed s.stepState.code
  refine ⟨s.statusByte, rfl, houtbox, hstage, hattention, horders, harmed, hstep.trans ?_⟩
  cases s.stepState <;> rfl

end Sys2Proof.Machine

/-! What the board's commands are answered: short commands, events, status, roster, counters and flags
(O25, O27 to O29). -/

namespace Sys2Proof.Machine

/-- A command that is taken makes its effect `f`. -/
theorem exec_of_taken {c : Instr} {s : State} {f : State → State} (htakes : s.takesCommand c = true)
    (h : exec c s = .next (s.taken c f)) : exec c s = .next (f s) :=
  h.trans (congrArg _ (State.taken_of_takesCommand c f s htakes))

/-! ### ARM, DISARM, ASK_CLEAR, ASK_EPOCH and unknown codes (R77, R159, R164, R171) -/

/-- An arm state that stands already is set again without a change. -/
theorem State.setArmed_eq (a : Bool) (s : State) : s.setArmed a =
    if s.stepState = .unconfigured then s.respond .notConfigured [] .nothing
    else State.respond (if s.armed = a then .already else .ok) [] .nothing { s with armed := a } := by
  by_cases hun : s.stepState = .unconfigured
  · rw [if_pos hun, State.setArmed, if_neg fun hc => s.configured_iff.mp hc hun]
    rfl
  · rw [if_neg hun, State.setArmed, if_pos (s.configured_iff.mpr hun)]
    by_cases hsame : s.armed = a
    · subst hsame
      simp only [if_true]
      rfl
    · simp only [hsame, if_false]
      rfl

theorem Body.isKind_clear (b : Body) : b.isKind .clear = (b == .clear) := by cases b <;> rfl

theorem Body.isKind_epoch (b : Body) : b.isKind .epoch = (b == .epoch) := by cases b <;> rfl

/-- A request for a frame whose kind fixes its body: IN_STEP is tested before the outbox (R171). -/
theorem State.next_askFrame {b : Body} (hb : ∀ x : Body, x.isKind b.kind = (x == b)) (s : State) :
    (.next (s.askFrame b) : Host.Outcome State Fault Refusal) =
      if s.stepState ≠ .inStep then .next (s.respond .notInStep [] .nothing)
      else if s.tx.outbox.any (fun e => e.body == b) then .next (s.respond .already [] .nothing)
      else .next ((s.admitEntry b).respond .ok [] .nothing) := by
  simp only [State.askFrame, Transmitter.holds, hb, apply_ite Host.Outcome.next]
  rfl

/-- Settles O25: the arm state, the two requests, and the codes that name no command. -/
theorem shortCommandsAreAnswered : Obligations.ShortCommandsAreAnswered := by
  refine ⟨fun s => ⟨fun htakes => ?_, fun htakes => ?_⟩, fun s => ⟨fun htakes => ?_, fun htakes => ?_⟩,
    fun code s htakes hwf => ?_⟩
  · rw [exec_of_taken htakes rfl, State.setArmed_eq]
    split <;> rfl
  · rw [exec_of_taken htakes rfl, State.setArmed_eq]
    split
    · rfl
    · cases s.armed <;> rfl
  · exact (exec_of_taken htakes rfl).trans (s.next_askFrame (b := .clear) Body.isKind_clear)
  · exact (exec_of_taken htakes rfl).trans (s.next_askFrame (b := .epoch) Body.isKind_epoch)
  · have hcode : ¬boardCodes.contains code = true := by
      simpa [boardCodes_eq_commandCodes, Instr.wf] using hwf
    exact exec_of_taken htakes (congrArg _ (if_neg hcode))

/-! ### Listing and staging (R165 to R167) -/

/-- In a lawful table a number names one record. -/
theorem Table.Law.find?_records {w : Nat} {t : Table} (hlaw : t.Law w) {r : EventRecord} (hr : r ∈ t.records) :
    t.records.find? (fun x => x.number == r.number) = some r := by
  obtain ⟨-, -, -, -, hnodup⟩ := hlaw
  obtain ⟨x, hx⟩ := Option.isSome_iff_exists.mp
    (List.find?_isSome (p := fun x => x.number == r.number).mpr ⟨r, hr, beq_self_eq_true _⟩)
  have hnumber : x.number = r.number := by simpa using List.find?_some hx
  rw [hx, List.inj_on_of_nodup_map hnodup (List.mem_of_find?_eq_some hx) hr hnumber]

theorem EventRecord.staged_length (r : EventRecord) : r.staged.length = 14 + 2 * r.members.length := by
  simp only [EventRecord.staged, List.length_append, EventRecord.payload_length, List.length_singleton]
  omega

/-- STAGE_EVENT of a number that names no record (R166). -/
theorem State.stageEvent_of_absent {n : Half} {s : State} (h : ∀ r ∈ s.table.records, r.number ≠ n) :
    s.stageEvent n = s.respond .notFound [] .nothing := by
  have hfind : s.table.records.find? (fun r => r.number == n) = none :=
    List.find?_eq_none.mpr fun r hr => by simpa using h r hr
  simp only [State.stageEvent, hfind]
  rfl

/-- STAGE_EVENT of a record's number (R166). -/
theorem State.stageEvent_of_mem {w : Nat} {r : EventRecord} {s : State} (hlaw : s.table.Law w)
    (hr : r ∈ s.table.records) : s.stageEvent r.number =
      State.respond .ok [BitVec.ofNat 8 (14 + 2 * r.members.length)] .nothing { s with stage := some r.staged } := by
  simp only [State.stageEvent, hlaw.find?_records hr, EventRecord.staged_length]

/-- READ_STAGE of a valid stage: the length is tested before the end of the bytes (R167). -/
theorem State.readStage_of_staged {bytes : List Byte} {s : State} (h : s.stage = some bytes) (offset length : Byte) :
    s.readStage offset length =
      if length.toNat = 0 ∨ 48 < length.toNat then s.respond .badRange [] .nothing
      else if bytes.length < offset.toNat + length.toNat then s.respond .badRange [] .nothing
      else s.respond .ok ((bytes.drop offset.toNat).take length.toNat) .nothing := by
  simp only [State.readStage, h, ← or_assoc (a := length.toNat = 0)]
  by_cases hlength : length.toNat = 0 ∨ 48 < length.toNat
  · rw [if_pos hlength, if_pos (.inl hlength)]
    rfl
  · rw [if_neg hlength]
    simp only [hlength, false_or]
    rfl

/-- Settles O27: the listing as it stands, STAGE_EVENT by the find in the table, READ_STAGE by its cases. -/
theorem eventsAreListedStagedAndRead : Obligations.EventsAreListedStagedAndRead := by
  refine ⟨fun s => ⟨fun htakes => ?_, fun n htakes habsent => ?_, fun r hr hlaw htakes => ?_⟩,
    fun offset length s htakes => ⟨fun hnone => ?_, fun bytes hstage => ?_⟩⟩
  · rw [exec_of_taken htakes rfl, ← List.length_append]
    rfl
  · rw [exec_of_taken htakes rfl, State.stageEvent_of_absent habsent]
  · rw [exec_of_taken htakes rfl, State.stageEvent_of_mem hlaw hr]
    rfl
  · rw [exec_of_taken htakes rfl, State.readStage, hnone]
    rfl
  · rw [exec_of_taken htakes rfl, State.readStage_of_staged hstage]
    simp only [apply_ite Host.Outcome.next]

/-! ### Status, roster and counters (R97, R168 to R170) -/

/-- In a sequence of parts of one width, the part of an element stands at its index times the width. -/
theorem drop_take_flatMap {α β : Type} (f : α → List β) (k : Nat) (hf : ∀ x, (f x).length = k) (l : List α)
    {i : Nat} (hi : i < l.length) : ((l.flatMap f).drop (k * i)).take k = f l[i] := by
  induction l generalizing i with
  | nil => cases hi
  | cons x l ih =>
    have htake : (f x ++ l.flatMap f).take k = f x := List.take_left' (hf x)
    cases i with
    | zero => simpa using htake
    | succ i =>
      have hdrop : (f x ++ l.flatMap f).drop k = l.flatMap f := List.drop_left' (hf x)
      rw [List.flatMap_cons, Nat.mul_succ, Nat.add_comm, ← List.drop_drop, hdrop]
      exact ih (Nat.lt_of_succ_lt_succ hi)

/-- The addresses stand at their own indices. -/
theorem allAddrs_getElem (a : Addr) : allAddrs[a.toNat]'a.isLt = a := by
  revert a
  decide

/-- The sixteen entries of READ_ROSTER, in address order (R170). -/
def State.rosterBytes (s : State) : List Byte := allAddrs.flatMap fun a => (s.rosterView a).bytes

theorem State.rosterBytes_length (s : State) : s.rosterBytes.length = 64 := rfl

theorem State.rosterBytes_entry (s : State) (a : Addr) :
    (s.rosterBytes.drop (4 * a.toNat)).take 4 = (s.rosterView a).bytes := by
  rw [State.rosterBytes, drop_take_flatMap _ 4 (fun _ => rfl) allAddrs a.isLt, allAddrs_getElem]

theorem State.rosterView_peer {s : State} {a : Addr} (h : a ≠ s.addr) : s.rosterView a = s.roster.entry a := if_neg h

/-- The own entry: PRESENT, with the step state, the arm state and the tick of now (R97, R178). -/
theorem State.rosterView_own_bytes (s : State) : (s.rosterView s.addr).bytes =
    [(if s.armed then 0x20#8 else 0#8) ||| (if s.stepState = .inStep then 0x10#8 else 0#8) ||| 0x01#8, 0#8]
      ++ be16 (s.tick.setWidth 16) := by
  have hbit : ∀ armed inStep : Bool,
      (0#1 ++ BitVec.ofBool false ++ BitVec.ofBool armed ++ BitVec.ofBool inStep ++ 0#2 ++ Presence.present.code : Byte)
        = (if armed then 0x20#8 else 0#8) ||| (if inStep then 0x10#8 else 0#8) ||| 0x01#8 := by decide
  have hown := hbit s.armed (s.stepState == .inStep)
  simp only [beq_iff_eq] at hown
  simp only [State.rosterView, if_true, RosterEntry.bytes, hown]
  rfl

/-- A stretch of a list, read by index. -/
theorem take_drop_eq_map_range {α : Type} (l : List α) (d : α) {k n : Nat} (h : k + n ≤ l.length) :
    (l.drop k).take n = (List.range n).map fun i => l.getD (k + i) d := by
  refine List.ext_getElem (by simp; omega) fun i hi _ => ?_
  have hin : k + i < l.length := by simp at hi; omega
  simp [hin]

theorem counterRangeOk_iff (first n : Byte) : counterRangeOk first n = true ↔
    first.toNat ≤ 15 ∧ 1 ≤ n.toNat ∧ n.toNat ≤ 16 ∧ first.toNat + n.toNat ≤ 16 := by
  simp [counterRangeOk, and_assoc]

/-- Settles O28: the bytes as they stand, the roster entry by entry, the counters by index. -/
theorem statusRosterAndCountersAreRead : Obligations.StatusRosterAndCountersAreRead := by
  refine ⟨fun s => ⟨fun htakes => ?_, fun htakes => ?_⟩, fun first n s htakes => ?_⟩
  · rw [exec_of_taken htakes rfl, State.extendedStatus]
    cases s.requester.phase <;> rfl
  · refine ⟨s.rosterBytes, exec_of_taken htakes rfl, s.rosterBytes_length, fun a ha => ?_, ?_⟩
    · rw [State.rosterBytes_entry, State.rosterView_peer ha]
    · rw [State.rosterBytes_entry, State.rosterView_own_bytes]
  · rw [exec_of_taken htakes rfl, State.readCounters]
    simp only [counterRangeOk_iff]
    split
    next hrange =>
      obtain ⟨-, -, -, hend⟩ := hrange
      rw [take_drop_eq_map_range s.counters.toList 0 (by simpa using hend), List.flatMap_map]
    next => rfl

/-! ### ACK_FLAGS (R173) -/

/-- The flags that mask and copy both hold are cleared, and no other. -/
theorem State.clearFlags_getLsbD (mask copy : Half) (s : State) {i : Nat} (hi : i < 9) :
    (s.clearFlags mask copy).flags.getLsbD i = (s.flags.getLsbD i && !(mask.getLsbD i && copy.getLsbD i)) := by
  simp [State.clearFlags, hi]

/-- The commit clears the flags and ends the response (R173). -/
theorem exec_ackFlagsCommit {mask copy : Half} {s : State} (hr : s.inReset = false) (htxn : s.port.txn = .response)
    (hcommit : s.port.commit = .ackFlags mask copy) :
    exec .ackFlagsCommit s = .next (s.clearFlags mask copy).trail := by
  have hresponse : (!s.inReset && s.port.txn == .response) = true := by simp [hr, htxn]
  simp only [exec, execAckFlagsCommit, hresponse, if_true, State.commitFlags, hcommit]

/-- With the status byte out, the end of a response writes the port alone (R158). -/
theorem State.trail_eq_of_statusOut {s : State} (hout : s.port.statusOut = true) :
    s.trail = { s with port := { s.port with txn := .trailing, commit := .nothing } } := by
  simp only [State.trail, State.statusGone, hout, if_true]

/-- Settles O29: the copy at the taking, then the commit's clearing, flag by flag. -/
theorem flagsAreAcknowledged : Obligations.FlagsAreAcknowledged := by
  refine fun mask copy s => ⟨fun htakes => exec_of_taken htakes rfl, fun hr htxn hcommit hout =>
    ⟨(s.clearFlags mask copy).flags, ?_, fun i hi => s.clearFlags_getLsbD mask copy hi⟩⟩
  have hcleared : (s.clearFlags mask copy).port.statusOut = true := hout
  rw [exec_ackFlagsCommit hr htxn hcommit, State.trail_eq_of_statusOut hcleared]
  rfl

end Sys2Proof.Machine
